-- ==== Sys2Proof/Word.lean ====
section
/-! DEFINITION. The word types of BACE: bytes, 32-bit registers and slot indices. -/

namespace Sys2Proof

/-- A byte is 8 bits (00_scope R10). -/
abbrev Byte := BitVec 8

/-- A host-visible register or a command word (00_scope R9, 30_encoding R85). -/
abbrev Word := BitVec 32

/-- A slot index as the D and S fields hold it (30_encoding R87). -/
abbrev SlotId := BitVec 4

end Sys2Proof
end

