-- ==== Sys2Proof/Config.lean ====
section
/-! DEFINITION. What an implementation of BACE fixes (00_scope section 4, 92_eei_decisions "OPEN parameters"), the constants of
the host register window (20_memory R71), and the free values, which nothing constrains. -/

namespace Sys2Proof

/-- The implementation parameters that the model takes as arguments: they are constants of one machine, and State holds them
because the host reads two of them as registers (10_state R46). -/
structure Params where
  /-- NSLOTS, the number of container slots (00_scope R6). -/
  nslots : Nat
  /-- MAX_BYTES, the largest backing length of a slot and the size of XBUF (00_scope R7, 10_state R43). -/
  maxBytes : Nat
  /-- BASE, the platform's address of the register window (20_memory R71). -/
  base : Nat
deriving DecidableEq, Repr

/-- The ranges the spec gives the parameters (00_scope R6, R7). -/
abbrev Params.wf (p : Params) : Prop :=
  2 ≤ p.nslots ∧ p.nslots ≤ 16 ∧ 8 ≤ p.maxBytes ∧ p.maxBytes ≤ 2 ^ 28

namespace Config

/-- The spec's default parameters (00_scope R6, R7). DESIGN CHOICE for BASE, which has no default (log 1). -/
def defaults : Params := { nslots := 16, maxBytes := 4096, base := 0 }

/-- The window's span in bytes (20_memory R71). -/
def windowBytes : Nat := 0x20000000

/-- The first offset after the registers (20_memory R71). -/
def registersEnd : Nat := 0x20

/-- The offset of XBUF[0] (20_memory R71). -/
def xbufOffset : Nat := 0x10000000

/-- FREE VALUE. How many steps pass before the engine's step, for the command issued at a draw: the open LAT, finite and
otherwise unconstrained (00_scope R8, 70_reset R239; log 2). -/
opaque latency : Nat → Nat

/-- FREE VALUE. XBUF's byte `i` after the reset of an epoch, until something writes it (10_state R49, 93 entry 7; log 8). -/
opaque powerUpXbuf : Nat → Nat → Byte

/-- FREE VALUE. Slot `k`'s storage byte `i` after the reset of an epoch, until something writes it (10_state R49, 93 entry 6;
log 9). -/
opaque powerUpSlot : Nat → SlotId → Nat → Byte

/-- FREE VALUE. What a host read of a register returns while BUSY = 1, at a draw (70_reset R235, 93 entry 9; log 7). -/
opaque busyWord : Nat → Word

/-- FREE VALUE. What a host read of XBUF returns while BUSY = 1, at a draw, for each of the access's bytes (70_reset R235,
93 entry 9; log 7). -/
opaque busyByte : Nat → Nat → Byte

end Config
end Sys2Proof
end

