-- ==== Sys2Proof/Syntax.lean ====
section
/-! DEFINITION. The commands of BACE: one constructor per row of spec/opcode_table.json, in the table's order, with the fields
that 30_encoding R94 lets the row use. -/

namespace Sys2Proof

/-- The integer width code W of LDINT (30_encoding R89); all four codes are legal. -/
inductive IntWidth where
  | w8 | w16 | w32 | w64
deriving DecidableEq, Repr

/-- A command. `d` is the receiver (field D), `o` the other container (field S), `v` the value (field V), `imm` the byte IMM8. -/
inductive Instr where
  | get (d : SlotId)
  | set (d : SlotId) (v : Bool)
  | setbo (d : SlotId) (v : Bool)
  | getb (d : SlotId)
  | setb (d : SlotId) (imm : Byte)
  | setr (d : SlotId) (v : Bool)
  | setrb (d : SlotId) (imm : Byte)
  | getrb (d : SlotId)
  | and (d o : SlotId)
  | or (d o : SlotId)
  | xor (d o : SlotId)
  | nor (d o : SlotId)
  | xnor (d o : SlotId)
  | nand (d o : SlotId)
  | not (d : SlotId)
  | new (d : SlotId)
  | ldint (d : SlotId) (w : IntWidth)
  | ldbytes (d : SlotId)
  | clone (d o : SlotId)
  | getsize (d : SlotId)
  | getlen (d : SlotId)
deriving DecidableEq, Repr

/-- The receiver slot: every command uses D (30_encoding R87). -/
def Instr.receiver : Instr → SlotId
  | .get d | .set d _ | .setbo d _ | .getb d | .setb d _ | .setr d _ | .setrb d _ | .getrb d => d
  | .and d _ | .or d _ | .xor d _ | .nor d _ | .xnor d _ | .nand d _ | .not d => d
  | .new d | .ldint d _ | .ldbytes d | .clone d _ | .getsize d | .getlen d => d

/-- The other slot, for the commands that use S (30_encoding R87). -/
def Instr.other : Instr → Option SlotId
  | .and _ o | .or _ o | .xor _ o | .nor _ o | .xnor _ o | .nand _ o | .clone _ o => some o
  | .get _ | .set _ _ | .setbo _ _ | .getb _ | .setb _ _ | .setr _ _ | .setrb _ _ | .getrb _ | .not _ => none
  | .new _ | .ldint _ _ | .ldbytes _ | .getsize _ | .getlen _ => none

/-- The four constructor commands, which create the container in their destination (10_state R35). -/
def Instr.isConstructor : Instr → Bool
  | .new _ | .ldint _ _ | .ldbytes _ | .clone _ _ => true
  | .get _ | .set _ _ | .setbo _ _ | .getb _ | .setb _ _ | .setr _ _ | .setrb _ _ | .getrb _ => false
  | .and _ _ | .or _ _ | .xor _ _ | .nor _ _ | .xnor _ _ | .nand _ _ | .not _ | .getsize _ | .getlen _ => false

end Sys2Proof
end

