-- ==== Sys2Proof/WellFormed.lean ====
section
/-! DEFINITION. Which commands a machine with NSLOTS slots has (30_encoding R87). Every other field of a command is legal at
every value. -/

namespace Sys2Proof

/-- A slot that exists. -/
def SlotId.inRange (nslots : Nat) (k : SlotId) : Bool := decide (k.toNat < nslots)

/-- D, and S where the command uses it, name existing slots (30_encoding R87). -/
def Instr.wellFormed (nslots : Nat) (i : Instr) : Bool :=
  SlotId.inRange nslots i.receiver &&
    match i.other with
    | some o => SlotId.inRange nslots o
    | none => true

end Sys2Proof
end

