-- ==== Sys2Proof/Decode.lean ====
section
/-! DEFINITION. The command word's fields (30_encoding R86), the decoder (R98) and the encoder (R86, R94). -/

namespace Sys2Proof

/-- The fields of a command word (30_encoding R86). -/
structure Fields where
  opc : BitVec 8
  d : SlotId
  s : SlotId
  v : BitVec 1
  w : BitVec 2
  rsv : BitVec 5
  imm : Byte
deriving DecidableEq, Repr

/-- Why a word is IllegalCommand (60_exceptions R205); all five are the one code 3. -/
inductive Reject where
  /-- OPC is not assigned (30_encoding R95). -/
  | unassignedOpcode
  /-- RSV is not 0 (R91). -/
  | reservedNonzero
  /-- A field the opcode does not use is not 0 (R92). -/
  | unusedNonzero
  /-- D is NSLOTS or more (R87). -/
  | receiverOutOfRange
  /-- The opcode uses S, and S is NSLOTS or more (R87). -/
  | otherOutOfRange
deriving DecidableEq, Repr

/-- The word's fields at their bit positions (30_encoding R86). -/
def Fields.ofWord (w : Word) : Fields where
  opc := w.extractLsb' 0 8
  d := w.extractLsb' 8 4
  s := w.extractLsb' 12 4
  v := w.extractLsb' 16 1
  w := w.extractLsb' 17 2
  rsv := w.extractLsb' 19 5
  imm := w.extractLsb' 24 8

/-- The word that holds the fields: IMM8 on top, OPC at the bottom (30_encoding R86). -/
def Fields.toWord (f : Fields) : Word :=
  f.imm ++ (f.rsv ++ (f.w ++ (f.v ++ (f.s ++ (f.d ++ f.opc)))))

/-- The V field's meaning: 1 is true (30_encoding R88). -/
def bitValue (v : BitVec 1) : Bool := v == 1#1

/-- A truth value as a V field. -/
def valueBit (v : Bool) : BitVec 1 := if v then 1#1 else 0#1

/-- The W field's meaning (30_encoding R89). -/
def IntWidth.ofCode (w : BitVec 2) : IntWidth :=
  match w with
  | 0b00#2 => .w8
  | 0b01#2 => .w16
  | 0b10#2 => .w32
  | _ => .w64

/-- A width's W code (30_encoding R89). -/
def IntWidth.code : IntWidth → BitVec 2
  | .w8 => 0b00#2
  | .w16 => 0b01#2
  | .w32 => 0b10#2
  | .w64 => 0b11#2

/-- The command that an assigned opcode stands for, with its used fields (30_encoding R94); `none` for the opcodes of R95. -/
def Fields.command (f : Fields) : Option Instr :=
  match f.opc with
  | 0x10#8 => some (.get f.d)
  | 0x11#8 => some (.set f.d (bitValue f.v))
  | 0x12#8 => some (.setbo f.d (bitValue f.v))
  | 0x13#8 => some (.getb f.d)
  | 0x14#8 => some (.setb f.d f.imm)
  | 0x20#8 => some (.setr f.d (bitValue f.v))
  | 0x21#8 => some (.setrb f.d f.imm)
  | 0x22#8 => some (.getrb f.d)
  | 0x30#8 => some (.and f.d f.s)
  | 0x31#8 => some (.or f.d f.s)
  | 0x32#8 => some (.xor f.d f.s)
  | 0x33#8 => some (.nor f.d f.s)
  | 0x34#8 => some (.xnor f.d f.s)
  | 0x35#8 => some (.nand f.d f.s)
  | 0x36#8 => some (.not f.d)
  | 0x01#8 => some (.new f.d)
  | 0x02#8 => some (.ldint f.d (IntWidth.ofCode f.w))
  | 0x03#8 => some (.ldbytes f.d)
  | 0x04#8 => some (.clone f.d f.s)
  | 0x40#8 => some (.getsize f.d)
  | 0x41#8 => some (.getlen f.d)
  | _ => none

/-- Does the command use field V (30_encoding R94)? -/
def Instr.usesV : Instr → Bool
  | .set _ _ | .setbo _ _ | .setr _ _ => true
  | .get _ | .getb _ | .setb _ _ | .setrb _ _ | .getrb _ | .and _ _ | .or _ _ | .xor _ _ | .nor _ _ => false
  | .xnor _ _ | .nand _ _ | .not _ | .new _ | .ldint _ _ | .ldbytes _ | .clone _ _ | .getsize _ | .getlen _ => false

/-- Does the command use field W (30_encoding R94)? -/
def Instr.usesW : Instr → Bool
  | .ldint _ _ => true
  | .get _ | .set _ _ | .setbo _ _ | .getb _ | .setb _ _ | .setr _ _ | .setrb _ _ | .getrb _ | .and _ _ | .or _ _ => false
  | .xor _ _ | .nor _ _ | .xnor _ _ | .nand _ _ | .not _ | .new _ | .ldbytes _ | .clone _ _ | .getsize _ | .getlen _ => false

/-- Does the command use field IMM8 (30_encoding R94)? -/
def Instr.usesImm : Instr → Bool
  | .setb _ _ | .setrb _ _ => true
  | .get _ | .set _ _ | .setbo _ _ | .getb _ | .setr _ _ | .getrb _ | .and _ _ | .or _ _ | .xor _ _ | .nor _ _ => false
  | .xnor _ _ | .nand _ _ | .not _ | .new _ | .ldint _ _ | .ldbytes _ | .clone _ _ | .getsize _ | .getlen _ => false

/-- A field the command does not use is not 0 (30_encoding R92). -/
def Fields.unusedNonzero (f : Fields) (i : Instr) : Bool :=
  (!i.other.isSome && f.s != 0#4) || (!i.usesV && f.v != 0#1) || (!i.usesW && f.w != 0#2) || (!i.usesImm && f.imm != 0#8)

/-- The decoder, total on all 2^32 words; the checks in the order of 30_encoding R98. -/
def decode (nslots : Nat) (w : Word) : Except Reject Instr :=
  let f := Fields.ofWord w
  match f.command with
  | none => .error .unassignedOpcode
  | some i =>
    if f.rsv != 0#5 then .error .reservedNonzero
    else if f.unusedNonzero i then .error .unusedNonzero
    else if !SlotId.inRange nslots i.receiver then .error .receiverOutOfRange
    else if !i.wellFormed nslots then .error .otherOutOfRange
    else .ok i

/-- The opcode of a command (30_encoding R94). -/
def Instr.opcode : Instr → BitVec 8
  | .get _ => 0x10
  | .set _ _ => 0x11
  | .setbo _ _ => 0x12
  | .getb _ => 0x13
  | .setb _ _ => 0x14
  | .setr _ _ => 0x20
  | .setrb _ _ => 0x21
  | .getrb _ => 0x22
  | .and _ _ => 0x30
  | .or _ _ => 0x31
  | .xor _ _ => 0x32
  | .nor _ _ => 0x33
  | .xnor _ _ => 0x34
  | .nand _ _ => 0x35
  | .not _ => 0x36
  | .new _ => 0x01
  | .ldint _ _ => 0x02
  | .ldbytes _ => 0x03
  | .clone _ _ => 0x04
  | .getsize _ => 0x40
  | .getlen _ => 0x41

/-- A command's V field: 0 where it is not used (30_encoding R92). -/
def Instr.valueField : Instr → BitVec 1
  | .set _ v | .setbo _ v | .setr _ v => valueBit v
  | .get _ | .getb _ | .setb _ _ | .setrb _ _ | .getrb _ | .and _ _ | .or _ _ | .xor _ _ | .nor _ _ => 0
  | .xnor _ _ | .nand _ _ | .not _ | .new _ | .ldint _ _ | .ldbytes _ | .clone _ _ | .getsize _ | .getlen _ => 0

/-- A command's W field: 0 where it is not used (30_encoding R92). -/
def Instr.widthField : Instr → BitVec 2
  | .ldint _ w => w.code
  | .get _ | .set _ _ | .setbo _ _ | .getb _ | .setb _ _ | .setr _ _ | .setrb _ _ | .getrb _ | .and _ _ | .or _ _ => 0
  | .xor _ _ | .nor _ _ | .xnor _ _ | .nand _ _ | .not _ | .new _ | .ldbytes _ | .clone _ _ | .getsize _ | .getlen _ => 0

/-- A command's IMM8 field: 0 where it is not used (30_encoding R92). -/
def Instr.immField : Instr → Byte
  | .setb _ imm | .setrb _ imm => imm
  | .get _ | .set _ _ | .setbo _ _ | .getb _ | .setr _ _ | .getrb _ | .and _ _ | .or _ _ | .xor _ _ | .nor _ _ => 0
  | .xnor _ _ | .nand _ _ | .not _ | .new _ | .ldint _ _ | .ldbytes _ | .clone _ _ | .getsize _ | .getlen _ => 0

/-- The fields of a command: RSV and every unused field 0 (30_encoding R91, R92). -/
def Instr.fields (i : Instr) : Fields where
  opc := i.opcode
  d := i.receiver
  s := i.other.getD 0
  v := i.valueField
  w := i.widthField
  rsv := 0
  imm := i.immField

/-- The encoder: the one word of a command (30_encoding R86, R92). -/
def encode (i : Instr) : Word := i.fields.toWord

/-- The word whose low `nbits` bits are `w`'s, numbered as spec/opcode_table.json numbers them, and whose other bits are 0. A
command is one 32-bit register write, so no byte order is between the table's bits and CMD's (30_encoding R85, R86). -/
def tableWord (nbits w : Nat) : Word := BitVec.ofNat 32 (w % 2 ^ nbits)

/-- What the decoder reads from an opcode-table word, with the spec's default NSLOTS. -/
def decodeTableWord (nbits w : Nat) : Option Instr := (decode Config.defaults.nslots (tableWord nbits w)).toOption

end Sys2Proof
end

