-- ==== Sys2Proof/Machine/State.lean ====
section
/-! DEFINITION. The state of BACE as plain data: everything 10_state gives the machine, the reset pin, and the host agent's
side; its reset; the reasons a step can stop. -/

namespace Sys2Proof.Machine

/-- The six completion codes of STATUS.ERR (10_state R45, 60_exceptions R200). -/
inductive ErrCode where
  | ok | invalidArgument | outOfRange | illegalCommand | capacityExceeded | noContainer
deriving DecidableEq, Repr

/-- Memory: the bytes that have been written, as cells with strictly rising addresses. An unlisted address has NO VALUE here: it
has not been written since reset, and the operations that read storage answer a free value for it (log 8, log 9). -/
abbrev Mem := List Host.Cell

/-- The canonical form: addresses strictly rising. No entry can equal what an unlisted address reads as, which is no value. -/
def Mem.wf : Mem → Bool
  | [] => true
  | [_] => true
  | c :: c' :: m => decide (c.1 < c'.1) && Mem.wf (c' :: m)

/-- A container slot (10_state R30). -/
structure Slot where
  /-- A container has been constructed in the slot (R35). -/
  valid : Bool
  /-- The backing length in bytes. -/
  len : Nat
  /-- The logical size in bits. -/
  size : Nat
  /-- The storage bytes; those below `len` are the backing buffer (R33). -/
  buf : Mem
deriving DecidableEq, Repr

/-- A slot after reset (10_state R49). -/
def Slot.reset : Slot := { valid := false, len := 0, size := 0, buf := [] }

/-- One access of the host, or one move of the reset pin (70_reset R236). `bytes` is the access's width, `addr` a byte address of
the platform. -/
inductive HostAct where
  /-- A read of `bytes` bytes. -/
  | read (bytes addr : Nat)
  /-- A write of `bytes` bytes; a one-byte write takes the low byte of `data`. -/
  | write (bytes addr : Nat) (data : Word)
  /-- The host's wait loop: read STATUS until BUSY = 0 (70_reset R234 step 4). -/
  | waitIdle
  /-- The platform asserts the reset input (70_reset R230). -/
  | assertReset
  /-- The platform releases the reset input (70_reset R230). -/
  | releaseReset
deriving DecidableEq, Repr

/-- The whole state: BACE's own (10_state), the reset pin, and the host agent's side. -/
structure State where
  /-- NSLOTS, MAX_BYTES and BASE; PARAM_NSLOTS and PARAM_MAXBYTES read the first two (R46). -/
  params : Params
  /-- C[0..15]; those from NSLOTS on do not exist and no command reaches them (R30, 30_encoding R87; log 19). -/
  slots : Vector Slot 16
  /-- Register A (R37). -/
  a : Word
  /-- Register B (R38). -/
  b : Word
  /-- Register CMD (R39). -/
  cmd : Word
  /-- Register R (R40). -/
  r : Word
  /-- Register XLEN (R42). -/
  xlen : Word
  /-- The transfer buffer XBUF (R43). -/
  xbuf : Mem
  /-- STATUS.BUSY (R44). -/
  busy : Bool
  /-- STATUS.ERRSEEN (R44). -/
  errSeen : Bool
  /-- STATUS.ERR (R44, R45). -/
  err : ErrCode
  /-- The reset input's level: true while asserted (70_reset R230). -/
  resetLine : Bool
  /-- MODEL'S OWN. How many more steps pass before the engine's step (the open LAT; log 2). -/
  lat : Nat
  /-- MODEL'S OWN. The host has written CMD and has not yet read BUSY = 0 for that command (20_memory R76; log 6). -/
  awaiting : Bool
  /-- MODEL'S OWN. The host's coming accesses, the next one first (log 3). -/
  host : List HostAct
  /-- MODEL'S OWN. The value the host's last read returned (log 4). -/
  busData : Word
  /-- MODEL'S OWN. The counter free values are drawn with. -/
  draws : Nat
  /-- MODEL'S OWN. How many resets have happened: names the unspecified contents of storage (log 8, log 9). -/
  epoch : Nat
deriving DecidableEq, Repr

/-- The host-protocol violations, and nothing else: no command ends in one. -/
inductive Fault where
  /-- Raised by a host write of CMD, A, B, XLEN or XBUF while BUSY = 1, or after a command before BUSY = 0 was read (70_reset R235,
  R236; 93 entries 8, 11, 12; log 6). Safe: the spec says a model must fault. -/
  | hostWriteWhileBusy
  /-- Raised by a host access of a width or alignment that 20_memory R72 does not allow (93 entry 10; log 10). Safe: the spec says
  a model must fault. -/
  | hostAccessShape
  /-- Raised by a host access outside BACE's register window (20_memory R71; log 10). Safe: the access is not BACE's. -/
  | outsideWindow
deriving DecidableEq, Repr

/-- Reasons for having no meaning. -/
inductive Refusal where
  /-- A command that has no meaning yet; no arm of `exec` answers it in this model. Safe. -/
  | notModelled (mnemonic : String)
deriving DecidableEq, Repr

/-- The state right after reset of a machine with these parameters: every value of 10_state R49, the pin released. The model's own
fields are at the values of log 14. -/
def State.resetWith (p : Params) : State where
  params := p
  slots := Vector.replicate 16 Slot.reset
  a := 0
  b := 0
  cmd := 0
  r := 0
  xlen := 0
  xbuf := []
  busy := false
  errSeen := false
  err := .ok
  resetLine := false
  lat := 0
  awaiting := false
  host := []
  busData := 0
  draws := 0
  epoch := 0

/-- The machine right after reset, with the spec's default parameters. -/
def State.reset : State := State.resetWith Config.defaults

end Sys2Proof.Machine
end

