-- ==== Sys2Proof/Machine/Operands.lean ====
section
/-! DEFINITION. How commands read their operands (30_encoding R93): the conversions of 00_scope R12 and R13, the bit indexer
(40_bit_access R110), the boundary masks (41_range R130) and LDINT's value (43_codec R172). -/

namespace Sys2Proof.Machine

/-- The two's-complement reading of a register, as an exact integer (00_scope R9, R12, R13). -/
def sint32 (v : Word) : Int := v.toInt

/-- The number of bytes that hold `n` bits (00_scope R12). -/
def ceil8 (n : Nat) : Nat := (n + 7) / 8

/-- A byte widened with zeros (00_scope R13). -/
def zextByte (b : Byte) : Word := b.setWidth 32

/-- A truth value widened with zeros (00_scope R13). -/
def zextBool (v : Bool) : Word := if v then 1 else 0

/-- The backing byte that holds bit `p` (40_bit_access R110). -/
def byteIndex (p : Nat) : Nat := p / 8

/-- The place of bit `p` in its byte (40_bit_access R110). -/
def bitOffset (p : Nat) : Nat := p % 8

/-- The one-hot mask of bit `p` in its byte (40_bit_access R110). -/
def bitMask (p : Nat) : Byte := 1#8 <<< (p % 8)

/-- The bits of byte `start div 8` from `start` up (41_range R130). -/
def startMask (start : Nat) : Byte := 0xFF#8 <<< (start % 8)

/-- The bits of byte `(stop - 1) div 8` below `stop` (41_range R130). -/
def endMask (stop : Nat) : Byte := 0xFF#8 >>> (7 - (stop - 1) % 8)

/-- The byte with the masked bits set to `v` (41_range R131, 40_bit_access R110). -/
def applyMask (m : Byte) (v : Bool) (b : Byte) : Byte := if v then b ||| m else b &&& ~~~m

/-- The byte a whole-byte fill writes (41_range R131). -/
def fillByte (v : Bool) : Byte := if v then 0xFF else 0x00

/-- LDINT's width in bytes (30_encoding R89, 43_codec R172). -/
def widthBytes : IntWidth → Nat
  | .w8 => 1
  | .w16 => 2
  | .w32 => 4
  | .w64 => 8

/-- LDINT's 64-bit value: B above A (30_encoding R93, 43_codec R172). -/
def integerOperand (a b : Word) : BitVec 64 := b ++ a

/-- Byte `i` of a value, little-endian (20_memory R61). -/
def valueByte (v : BitVec 64) (i : Nat) : Byte := v.extractLsb' (8 * i) 8

end Sys2Proof.Machine
end

