-- ==== Sys2Proof/Machine/Flags.lean ====
section
/-! DEFINITION. STATUS, the only flags BACE has (10_state R44, R45, R47), and the completion step that writes them
(60_exceptions R206). -/

namespace Sys2Proof.Machine

/-- The number of a completion code (10_state R45). -/
def ErrCode.bits : ErrCode → BitVec 4
  | .ok => 0
  | .invalidArgument => 1
  | .outOfRange => 2
  | .illegalCommand => 3
  | .capacityExceeded => 4
  | .noContainer => 5

/-- The STATUS word as the host reads it: ERR in 7:4, ERRSEEN in 1, BUSY in 0, the rest 0 (10_state R44). -/
def State.status (s : State) : Word :=
  0#24 ++ (s.err.bits ++ (0#2 ++ (BitVec.ofBool s.errSeen ++ BitVec.ofBool s.busy)))

/-- The completion step, for success and for every error: ERR := code, ERRSEEN sticky, BUSY := 0 (60_exceptions R206). -/
def State.complete (c : ErrCode) (s : State) : State :=
  { s with err := c, errSeen := s.errSeen || decide (c ≠ .ok), busy := false }

/-- The code of the first check that fails, `ok` when none does: one command reports one code (60_exceptions R207). -/
def firstError : List (Bool × ErrCode) → ErrCode
  | [] => .ok
  | (true, c) :: _ => c
  | (false, _) :: rest => firstError rest

end Sys2Proof.Machine
end

