-- ==== Sys2Proof/Machine/Ops.lean ====
section
/-! DEFINITION. The named operations over memory, slots and XBUF (00_scope R14), growth (20_memory R65), a constructor's write of
a slot (43_codec), and the shape that every command shares: check phase, effect phase, completion (00_scope R15), with a raised
error as the one operation `State.raise` (60_exceptions R206). BACE has no return from an error (R209). -/

namespace Sys2Proof.Machine

/-! ## Memory -/

/-- The byte at an address; `none` where nothing has been written. -/
def Mem.get? : Mem → Nat → Option Byte
  | [], _ => none
  | c :: m, i => if i = c.1 then some c.2 else Mem.get? m i

/-- Write one byte, keeping the addresses strictly rising. -/
def Mem.write : Mem → Nat → Byte → Mem
  | [], i, b => [(i, b)]
  | c :: m, i, b =>
    if i < c.1 then (i, b) :: c :: m
    else if i = c.1 then (i, b) :: m
    else c :: Mem.write m i b

/-- Write `f i` to every address `i` of the `n` addresses from `start`, lowest first. -/
def Mem.fill (m : Mem) (f : Nat → Byte) (start : Nat) : Nat → Mem
  | 0 => m
  | n + 1 => (Mem.fill m f start n).write (start + n) (f (start + n))

/-! ## Slots -/

/-- Slot `k`. -/
def State.slot (s : State) (k : SlotId) : Slot := s.slots[k.toNat]

/-- Replace slot `k`; no other slot changes (20_memory R82). -/
def State.setSlot (s : State) (k : SlotId) (c : Slot) : State := { s with slots := s.slots.set k.toNat c }

/-- Storage byte `i` of slot `k`. -/
def State.byte (s : State) (k : SlotId) (i : Nat) : Byte :=
  ((s.slot k).buf.get? i).getD (Config.powerUpSlot s.epoch k i)

/-- Bit `p` of slot `k` (20_memory R60, 40_bit_access R110). -/
def State.readBit (s : State) (k : SlotId) (p : Nat) : Bool := (s.byte k (byteIndex p)).getLsbD (bitOffset p)

/-- The `n` bytes of slot `k` from `i`, as a little-endian number (00_scope R14, 20_memory R61). -/
def State.memRead (s : State) (k : SlotId) (i : Nat) : Nat → Nat
  | 0 => 0
  | n + 1 => (s.byte k i).toNat + 256 * State.memRead s k (i + 1) n

/-- Write one storage byte of slot `k`. -/
def State.writeByte (s : State) (k : SlotId) (i : Nat) (b : Byte) : State :=
  s.setSlot k { s.slot k with buf := (s.slot k).buf.write i b }

/-- Write `f i` to the `n` storage bytes `i` of slot `k` from `start`. -/
def State.fillBytes (s : State) (k : SlotId) (f : Nat → Byte) (start n : Nat) : State :=
  s.setSlot k { s.slot k with buf := (s.slot k).buf.fill f start n }

/-- Set the masked bits of byte `i` of slot `k` to `v`, and no other bit (41_range R131 `apply`). -/
def State.maskByte (s : State) (k : SlotId) (i : Nat) (m : Byte) (v : Bool) : State :=
  s.writeByte k i (applyMask m v (s.byte k i))

/-- Write bit `p` of slot `k`, and no other bit (40_bit_access R110). -/
def State.writeBit (s : State) (k : SlotId) (p : Nat) (v : Bool) : State := s.maskByte k (byteIndex p) (bitMask p) v

/-- The growth primitive: zero bytes up to exactly `n`, never shorter (20_memory R65, R66). -/
def State.grow (s : State) (k : SlotId) (n : Nat) : State :=
  let c := s.slot k
  if c.len < n then s.setSlot k { c with len := n, buf := c.buf.fill (fun _ => 0x00) c.len (n - c.len) } else s

/-- `size := max(size, v)`: a write raises the logical size and never lowers it (10_state R30). -/
def State.raiseSize (s : State) (k : SlotId) (v : Nat) : State :=
  let c := s.slot k
  s.setSlot k { c with size := max c.size v }

/-- A constructor's write of slot `k`: valid, a backing buffer of `len` bytes `f i`, a size (43_codec R170-R175). -/
def State.construct (s : State) (k : SlotId) (len size : Nat) (f : Nat → Byte) : State :=
  s.setSlot k { valid := true, len := len, size := size, buf := (s.slot k).buf.fill f 0 len }

/-- The operand byte of a logic command: the slot's own byte, or 0 beyond its length (42_logic R150). -/
def State.opByte (s : State) (k : SlotId) (i : Nat) : Byte := if i < (s.slot k).len then s.byte k i else 0x00

/-! ## The transfer buffer -/

/-- XBUF's byte `i` (00_scope R14). -/
def State.xread (s : State) (i : Nat) : Byte := (s.xbuf.get? i).getD (Config.powerUpXbuf s.epoch i)

/-- Write XBUF's byte `i` (00_scope R14). -/
def State.xwrite (s : State) (i : Nat) (b : Byte) : State := { s with xbuf := s.xbuf.write i b }

/-! ## Check, effect, completion -/

/-- Raise an error: the command completes with the code and changes nothing but STATUS (60_exceptions R206, R208). -/
def State.raise (c : ErrCode) (s : State) : Host.Outcome State Fault Refusal := .next (s.complete c)

/-- A command: when a check fails it raises that code with no effect, otherwise its effect happens and it completes with OK
(00_scope R15, 60_exceptions R206). -/
def State.command (s : State) (check : ErrCode) (effect : State) : Host.Outcome State Fault Refusal :=
  if check = .ok then .next (effect.complete .ok) else s.raise check

/-- Does slot `k` hold no container (60_exceptions R204)? -/
def State.noContainer (s : State) (k : SlotId) : Bool := !(s.slot k).valid

end Sys2Proof.Machine
end

