-- ==== Sys2Proof/Machine/BitAccess.lean ====
section
/-! DEFINITION. The bit and byte access commands: GET, SET, SETBO, GETB, SETB (40_bit_access). -/

namespace Sys2Proof.Machine

/-- GET's check phase (R111): the bound is `size`. -/
def checkGet (d : SlotId) (s : State) : ErrCode :=
  let pos := sint32 s.a
  firstError [(s.noContainer d, .noContainer), (decide (pos < 0), .invalidArgument),
    (decide (((s.slot d).size : Int) ≤ pos), .outOfRange)]

/-- GET's effect phase (R111). -/
def effectGet (d : SlotId) (s : State) : State := { s with r := zextBool (s.readBit d (sint32 s.a).toNat) }

/-- GET: read one bit (R111). -/
def execGet (d : SlotId) (s : State) : Host.Outcome State Fault Refusal := s.command (checkGet d s) (effectGet d s)

/-- SET's check phase (R112). -/
def checkSet (d : SlotId) (s : State) : ErrCode :=
  let pos := sint32 s.a
  firstError [(s.noContainer d, .noContainer), (decide (pos < 0), .invalidArgument),
    (decide (s.params.maxBytes < byteIndex pos.toNat + 1), .capacityExceeded)]

/-- Grow to the byte of bit `p`, write the bit, raise the size past it: the effect of SET and SETBO (R112, R113). -/
def writeBitGrowing (d : SlotId) (p : Nat) (v : Bool) (s : State) : State :=
  ((s.grow d (byteIndex p + 1)).writeBit d p v).raiseSize d (p + 1)

/-- SET's effect phase (R112). -/
def effectSet (d : SlotId) (v : Bool) (s : State) : State := writeBitGrowing d (sint32 s.a).toNat v s

/-- SET: write one bit by position (R112). -/
def execSet (d : SlotId) (v : Bool) (s : State) : Host.Outcome State Fault Refusal :=
  s.command (checkSet d s) (effectSet d v s)

/-- SETBO's check phase (R113): the byte index is checked before the bit offset. -/
def checkSetbo (d : SlotId) (s : State) : ErrCode :=
  let bi := sint32 s.a
  let bo := sint32 s.b
  firstError [(s.noContainer d, .noContainer), (decide (bi < 0), .invalidArgument),
    (decide (bo < 0 ∨ 7 < bo), .invalidArgument), (decide ((s.params.maxBytes : Int) < bi + 1), .capacityExceeded)]

/-- SETBO's effect phase (R113). -/
def effectSetbo (d : SlotId) (v : Bool) (s : State) : State :=
  writeBitGrowing d (8 * (sint32 s.a).toNat + (sint32 s.b).toNat) v s

/-- SETBO: write one bit by byte index and bit offset (R113). -/
def execSetbo (d : SlotId) (v : Bool) (s : State) : Host.Outcome State Fault Refusal :=
  s.command (checkSetbo d s) (effectSetbo d v s)

/-- GETB's check phase (R114): the bound is `len`. -/
def checkGetb (d : SlotId) (s : State) : ErrCode :=
  let n := sint32 s.a
  firstError [(s.noContainer d, .noContainer), (decide (n < 0), .invalidArgument),
    (decide (((s.slot d).len : Int) ≤ n), .outOfRange)]

/-- GETB's effect phase (R114): the byte is never sign-extended. -/
def effectGetb (d : SlotId) (s : State) : State := { s with r := zextByte (s.byte d (sint32 s.a).toNat) }

/-- GETB: read one byte (R114). -/
def execGetb (d : SlotId) (s : State) : Host.Outcome State Fault Refusal := s.command (checkGetb d s) (effectGetb d s)

/-- SETB's check phase (R115). -/
def checkSetb (d : SlotId) (s : State) : ErrCode :=
  let n := sint32 s.a
  firstError [(s.noContainer d, .noContainer), (decide (n < 0), .invalidArgument),
    (decide ((s.params.maxBytes : Int) < n + 1), .capacityExceeded)]

/-- SETB's effect phase (R115). -/
def effectSetb (d : SlotId) (imm : Byte) (s : State) : State :=
  let n := (sint32 s.a).toNat
  ((s.grow d (n + 1)).writeByte d n imm).raiseSize d (8 * (n + 1))

/-- SETB: write one byte (R115). -/
def execSetb (d : SlotId) (imm : Byte) (s : State) : Host.Outcome State Fault Refusal :=
  s.command (checkSetb d s) (effectSetb d imm s)

end Sys2Proof.Machine
end

