-- ==== Sys2Proof/Machine/Codec.lean ====
section
/-! DEFINITION. The constructor commands: NEW, LDINT, LDBYTES, CLONE (43_codec). Their destination may be invalid, and a valid
one's container is replaced wholly (R175). -/

namespace Sys2Proof.Machine

/-- NEW's check phase (R170). -/
def checkNew (s : State) : ErrCode :=
  let n := sint32 s.a
  firstError [(decide (n < 0), .invalidArgument), (decide (s.params.maxBytes < ceil8 n.toNat), .capacityExceeded)]

/-- NEW's effect phase (R170). -/
def effectNew (d : SlotId) (s : State) : State :=
  let n := (sint32 s.a).toNat
  s.construct d (ceil8 n) n (fun _ => 0x00)

/-- NEW: a zeroed container of an explicit bit length (R170). -/
def execNew (d : SlotId) (s : State) : Host.Outcome State Fault Refusal := s.command (checkNew s) (effectNew d s)

/-- LDINT's effect phase (R172): it has no check beyond decoding. -/
def effectLdint (d : SlotId) (w : IntWidth) (s : State) : State :=
  s.construct d (widthBytes w) (8 * widthBytes w) (valueByte (integerOperand s.a s.b))

/-- LDINT: a container from a fixed-width integer (R172). -/
def execLdint (d : SlotId) (w : IntWidth) (s : State) : Host.Outcome State Fault Refusal := s.command .ok (effectLdint d w s)

/-- LDBYTES's check phase (R173): XLEN is unsigned. -/
def checkLdbytes (s : State) : ErrCode := firstError [(decide (s.params.maxBytes < s.xlen.toNat), .capacityExceeded)]

/-- LDBYTES's effect phase (R173). -/
def effectLdbytes (d : SlotId) (s : State) : State := s.construct d s.xlen.toNat (8 * s.xlen.toNat) s.xread

/-- LDBYTES: a container from the bytes in XBUF (R173). -/
def execLdbytes (d : SlotId) (s : State) : Host.Outcome State Fault Refusal :=
  s.command (checkLdbytes s) (effectLdbytes d s)

/-- CLONE's check phase (R174): only the source must be valid. -/
def checkClone (o : SlotId) (s : State) : ErrCode := firstError [(s.noContainer o, .noContainer)]

/-- CLONE's effect phase (R174): a copy of the source's bytes; nothing when the slots are one. -/
def effectClone (d o : SlotId) (s : State) : State :=
  if d = o then s else s.construct d (s.slot o).len (s.slot o).size (s.byte o)

/-- CLONE: an independent copy (R174, 20_memory R82). -/
def execClone (d o : SlotId) (s : State) : Host.Outcome State Fault Refusal :=
  s.command (checkClone o s) (effectClone d o s)

end Sys2Proof.Machine
end

