-- ==== Sys2Proof/Machine/Logic.lean ====
section
/-! DEFINITION. The bitwise logic unit: AND, OR, XOR, NOR, XNOR, NAND, NOT (42_logic). -/

namespace Sys2Proof.Machine

/-- The check phase of the six binary commands: the receiver before the operand (R152, 60_exceptions R207). -/
def checkLogic (d o : SlotId) (s : State) : ErrCode :=
  firstError [(s.noContainer d, .noContainer), (s.noContainer o, .noContainer)]

/-- The effect phase of the six binary commands: every backing byte of the receiver, from the bytes before the command; the two
slots may be one (R152, 20_memory R81). -/
def effectLogic (f : Byte → Byte → Byte) (d o : SlotId) (s : State) : State :=
  s.fillBytes d (fun i => f (s.byte d i) (s.opByte o i)) 0 (s.slot d).len

/-- The operation kind AND (R151). -/
def byteAnd (x y : Byte) : Byte := x &&& y

/-- The operation kind OR (R151). -/
def byteOr (x y : Byte) : Byte := x ||| y

/-- The operation kind XOR (R151). -/
def byteXor (x y : Byte) : Byte := x ^^^ y

/-- The operation kind NOR (R151). -/
def byteNor (x y : Byte) : Byte := ~~~(x ||| y)

/-- The operation kind XNOR (R151). -/
def byteXnor (x y : Byte) : Byte := ~~~(x ^^^ y)

/-- The operation kind NAND (R151). -/
def byteNand (x y : Byte) : Byte := ~~~(x &&& y)

/-- AND (R153). -/
def execAnd (d o : SlotId) (s : State) : Host.Outcome State Fault Refusal :=
  s.command (checkLogic d o s) (effectLogic byteAnd d o s)

/-- OR (R154). -/
def execOr (d o : SlotId) (s : State) : Host.Outcome State Fault Refusal :=
  s.command (checkLogic d o s) (effectLogic byteOr d o s)

/-- XOR (R155). -/
def execXor (d o : SlotId) (s : State) : Host.Outcome State Fault Refusal :=
  s.command (checkLogic d o s) (effectLogic byteXor d o s)

/-- NOR (R156). -/
def execNor (d o : SlotId) (s : State) : Host.Outcome State Fault Refusal :=
  s.command (checkLogic d o s) (effectLogic byteNor d o s)

/-- XNOR (R157). -/
def execXnor (d o : SlotId) (s : State) : Host.Outcome State Fault Refusal :=
  s.command (checkLogic d o s) (effectLogic byteXnor d o s)

/-- NAND (R158). -/
def execNand (d o : SlotId) (s : State) : Host.Outcome State Fault Refusal :=
  s.command (checkLogic d o s) (effectLogic byteNand d o s)

/-- NOT's check phase (R159). -/
def checkNot (d : SlotId) (s : State) : ErrCode := firstError [(s.noContainer d, .noContainer)]

/-- NOT's effect phase: every backing byte, padding bits included (R159, 90_conflicts C5). -/
def effectNot (d : SlotId) (s : State) : State := s.fillBytes d (fun i => ~~~(s.byte d i)) 0 (s.slot d).len

/-- NOT: complement in place (R159). -/
def execNot (d : SlotId) (s : State) : Host.Outcome State Fault Refusal := s.command (checkNot d s) (effectNot d s)

end Sys2Proof.Machine
end

