-- ==== Sys2Proof/Machine/Query.lean ====
section
/-! DEFINITION. The queries: GETSIZE, GETLEN (44_query). -/

namespace Sys2Proof.Machine

/-- The check phase of the two queries (R195, R196). -/
def checkQuery (d : SlotId) (s : State) : ErrCode := firstError [(s.noContainer d, .noContainer)]

/-- GETSIZE: the logical size in bits (R195). -/
def execGetsize (d : SlotId) (s : State) : Host.Outcome State Fault Refusal :=
  s.command (checkQuery d s) { s with r := BitVec.ofNat 32 (s.slot d).size }

/-- GETLEN: the backing length in bytes (R196). -/
def execGetlen (d : SlotId) (s : State) : Host.Outcome State Fault Refusal :=
  s.command (checkQuery d s) { s with r := BitVec.ofNat 32 (s.slot d).len }

end Sys2Proof.Machine
end

