-- ==== Sys2Proof/Machine/Range.lean ====
section
/-! DEFINITION. The range commands: SETR, SETRB, GETRB (41_range). -/

namespace Sys2Proof.Machine

/-- The bounds check that the three range commands share: `start < 0` or `start ≥ end` (R131, R132, R133). -/
def badRange (s : State) : Bool := decide (sint32 s.a < 0 ∨ sint32 s.b ≤ sint32 s.a)

/-- SETR's check phase (R131). -/
def checkSetr (d : SlotId) (s : State) : ErrCode :=
  firstError [(s.noContainer d, .noContainer), (badRange s, .invalidArgument),
    (decide (s.params.maxBytes < byteIndex ((sint32 s.b).toNat - 1) + 1), .capacityExceeded)]

/-- The bit range `[start, stop)` set to `v` inside the backing buffer: whole interior bytes, then masked boundary bytes (R131). -/
def writeRange (d : SlotId) (start stop : Nat) (v : Bool) (s : State) : State :=
  let si := byteIndex start
  let ei := byteIndex (stop - 1)
  let filled := s.fillBytes d (fun _ => fillByte v) (si + 1) (ei - (si + 1))
  if si = ei then filled.maskByte d si (startMask start &&& endMask stop) v
  else (filled.maskByte d si (startMask start) v).maskByte d ei (endMask stop) v

/-- SETR's effect phase (R131). -/
def effectSetr (d : SlotId) (v : Bool) (s : State) : State :=
  let start := (sint32 s.a).toNat
  let stop := (sint32 s.b).toNat
  writeRange d start stop v ((s.grow d (byteIndex (stop - 1) + 1)).raiseSize d stop)

/-- SETR: set or clear a half-open bit range (R131). -/
def execSetr (d : SlotId) (v : Bool) (s : State) : Host.Outcome State Fault Refusal :=
  s.command (checkSetr d s) (effectSetr d v s)

/-- SETRB's check phase (R132). -/
def checkSetrb (d : SlotId) (s : State) : ErrCode :=
  firstError [(s.noContainer d, .noContainer), (badRange s, .invalidArgument),
    (decide ((s.params.maxBytes : Int) < sint32 s.b), .capacityExceeded)]

/-- SETRB's effect phase (R132). -/
def effectSetrb (d : SlotId) (imm : Byte) (s : State) : State :=
  let start := (sint32 s.a).toNat
  let stop := (sint32 s.b).toNat
  ((s.grow d stop).fillBytes d (fun _ => imm) start (stop - start)).raiseSize d (8 * stop)

/-- SETRB: fill a half-open byte range with one byte value (R132). -/
def execSetrb (d : SlotId) (imm : Byte) (s : State) : Host.Outcome State Fault Refusal :=
  s.command (checkSetrb d s) (effectSetrb d imm s)

/-- GETRB's check phase (R133): the bound is `len`. -/
def checkGetrb (d : SlotId) (s : State) : ErrCode :=
  firstError [(s.noContainer d, .noContainer), (badRange s, .invalidArgument),
    (decide (((s.slot d).len : Int) < sint32 s.b), .outOfRange)]

/-- GETRB's effect phase (R133): the slice goes to XBUF, its length to XLEN. -/
def effectGetrb (d : SlotId) (s : State) : State :=
  let start := (sint32 s.a).toNat
  let n := (sint32 s.b).toNat - start
  { s with xbuf := s.xbuf.fill (fun i => s.byte d (start + i)) 0 n, xlen := BitVec.ofNat 32 n }

/-- GETRB: copy a half-open byte range out (R133). -/
def execGetrb (d : SlotId) (s : State) : Host.Outcome State Fault Refusal := s.command (checkGetrb d s) (effectGetrb d s)

end Sys2Proof.Machine
end

