-- ==== Sys2Proof/Machine/Dispatch.lean ====
section
/-! DEFINITION. One arm per command of spec/opcode_table.json, in the table's order. -/

namespace Sys2Proof.Machine

def exec (i : Instr) (s : State) : Host.Outcome State Fault Refusal :=
  match i with
  | .get d => Sys2Proof.Machine.execGet d s
  | .set d v => Sys2Proof.Machine.execSet d v s
  | .setbo d v => Sys2Proof.Machine.execSetbo d v s
  | .getb d => Sys2Proof.Machine.execGetb d s
  | .setb d imm => Sys2Proof.Machine.execSetb d imm s
  | .setr d v => Sys2Proof.Machine.execSetr d v s
  | .setrb d imm => Sys2Proof.Machine.execSetrb d imm s
  | .getrb d => Sys2Proof.Machine.execGetrb d s
  | .and d o => Sys2Proof.Machine.execAnd d o s
  | .or d o => Sys2Proof.Machine.execOr d o s
  | .xor d o => Sys2Proof.Machine.execXor d o s
  | .nor d o => Sys2Proof.Machine.execNor d o s
  | .xnor d o => Sys2Proof.Machine.execXnor d o s
  | .nand d o => Sys2Proof.Machine.execNand d o s
  | .not d => Sys2Proof.Machine.execNot d s
  | .new d => Sys2Proof.Machine.execNew d s
  | .ldint d w => Sys2Proof.Machine.execLdint d w s
  | .ldbytes d => Sys2Proof.Machine.execLdbytes d s
  | .clone d o => Sys2Proof.Machine.execClone d o s
  | .getsize d => Sys2Proof.Machine.execGetsize d s
  | .getlen d => Sys2Proof.Machine.execGetlen d s

end Sys2Proof.Machine
end

