-- ==== Sys2Proof/Machine/Engine.lean ====
section
/-! DEFINITION. The engine's step: it decodes the word in CMD and runs the command to its completion (70_reset R234 step 3,
20_memory R69). -/

namespace Sys2Proof.Machine

/-- The engine's step. A word that does not decode completes with IllegalCommand, whatever the reason (30_encoding R95, R96,
60_exceptions R205). -/
def engineStep (s : State) : Host.Outcome State Fault Refusal :=
  match decode s.params.nslots s.cmd with
  | .ok i => exec i s
  | .error _ => s.raise .illegalCommand

end Sys2Proof.Machine
end

