-- ==== Sys2Proof/Machine/HostAccess.lean ====
section
/-! DEFINITION. The host's side: the register window (20_memory R71-R73), the issue of a command and the BUSY protocol
(70_reset R234-R236), and the reset input (R230-R232). -/

namespace Sys2Proof.Machine

/-! ## Which accesses the window takes -/

/-- The widths and alignments of 20_memory R72: aligned words everywhere, single bytes everywhere but at the registers (log 10). -/
def shapeAllowed (bytes off : Nat) : Bool :=
  match bytes with
  | 1 => decide (Config.registersEnd ≤ off)
  | 4 => decide (off % 4 = 0)
  | _ => false

/-- The fault of an access, if it is none of BACE's (20_memory R71, R72; log 10). -/
def accessFault (p : Params) (bytes addr : Nat) : Option Fault :=
  if addr < p.base ∨ p.base + Config.windowBytes ≤ addr then some .outsideWindow
  else if shapeAllowed bytes (addr - p.base) then none
  else some .hostAccessShape

/-- Does the offset lie in XBUF (20_memory R71)? -/
def inXbuf (p : Params) (off : Nat) : Bool :=
  decide (Config.xbufOffset ≤ off ∧ off < Config.xbufOffset + p.maxBytes)

/-! ## Reads -/

/-- What a read of the register at a word's number returns (20_memory R71). While BUSY = 1 the value of A, B, R and XLEN is a free
value; CMD, STATUS and the parameters are always defined (70_reset R235; log 7). -/
def State.registerValue (s : State) (reg : Nat) : Word :=
  match reg with
  | 0 => s.cmd
  | 1 => if s.busy then Config.busyWord s.draws else s.a
  | 2 => if s.busy then Config.busyWord s.draws else s.b
  | 3 => if s.busy then Config.busyWord s.draws else s.r
  | 4 => s.status
  | 5 => if s.busy then Config.busyWord s.draws else s.xlen
  | 6 => BitVec.ofNat 32 s.params.nslots
  | 7 => BitVec.ofNat 32 s.params.maxBytes
  | _ => 0

/-- What a read of one byte beyond the registers returns, as byte `j` of its access: XBUF's byte, a free value while BUSY = 1, and
0 at a reserved offset (20_memory R73, 70_reset R235). -/
def State.byteValue (s : State) (off j : Nat) : Byte :=
  if inXbuf s.params (off + j) then
    if s.busy then Config.busyByte s.draws j else s.xread (off + j - Config.xbufOffset)
  else 0

/-- What an allowed read returns; words of XBUF are little-endian (20_memory R71, R72, R73). -/
def State.readValue (s : State) (bytes off : Nat) : Word :=
  if off < Config.registersEnd then s.registerValue (off / 4)
  else if bytes = 1 then zextByte (s.byteValue off 0)
  else s.byteValue off 3 ++ (s.byteValue off 2 ++ (s.byteValue off 1 ++ s.byteValue off 0))

/-- A read's effect on the host's side; it changes nothing of BACE (20_memory R70). A read of STATUS that returns BUSY = 0 ends
the host's wait (20_memory R76; log 6). -/
def State.hostRead (s : State) (bytes off : Nat) : State :=
  { s with
    busData := s.readValue bytes off
    draws := if s.busy then s.draws + 1 else s.draws
    awaiting := if off = 0x010 ∧ s.busy = false then false else s.awaiting }

/-! ## Writes -/

/-- A host write of CMD: it stores the word and starts the command (10_state R39, 70_reset R234 step 2). When the engine moves is
open (log 2). -/
def State.issue (s : State) (w : Word) : State :=
  { s with cmd := w, busy := true, awaiting := true, lat := Config.latency s.draws, draws := s.draws + 1 }

/-- Is a write of CMD, A, B, XLEN or XBUF a host-protocol violation (70_reset R235, R236; 93 entries 8, 11; log 6)? -/
def State.writeBarred (s : State) : Bool := s.busy || s.awaiting

/-- A write that the protocol bars while a command may still run. -/
def State.guardedWrite (s t : State) : Host.Outcome State Fault Refusal :=
  if s.writeBarred then .fault .hostWriteWhileBusy else .next t

/-- A write of one byte beyond the registers: XBUF's byte, nothing at a reserved offset (20_memory R73). -/
def State.writeByteAt (s : State) (off : Nat) (b : Byte) : State :=
  if inXbuf s.params off then s.xwrite (off - Config.xbufOffset) b else s

/-- An allowed write beyond the registers: one byte, or four little-endian (20_memory R72; log 11). -/
def State.writeBytes (s : State) (bytes off : Nat) (data : Word) : State :=
  let s0 := s.writeByteAt off (data.extractLsb' 0 8)
  if bytes = 1 then s0
  else ((s0.writeByteAt (off + 1) (data.extractLsb' 8 8)).writeByteAt (off + 2) (data.extractLsb' 16 8)).writeByteAt (off + 3)
    (data.extractLsb' 24 8)

/-- An allowed write: R, STATUS and the parameters ignore it (10_state R40, R44, R46), and so do reserved offsets (20_memory R73). -/
def State.hostWrite (s : State) (bytes off : Nat) (data : Word) : Host.Outcome State Fault Refusal :=
  if off < Config.registersEnd then
    match off / 4 with
    | 0 => s.guardedWrite (s.issue data)
    | 1 => s.guardedWrite { s with a := data }
    | 2 => s.guardedWrite { s with b := data }
    | 5 => s.guardedWrite { s with xlen := data }
    | _ => .next s
  else if inXbuf s.params off then s.guardedWrite (s.writeBytes bytes off data)
  else .next s

/-! ## Reset and the host's moves -/

/-- Asserting the reset input: every piece of BACE's state takes its value after reset, a running command is abandoned, and the
unspecified bytes are drawn anew (10_state R49, 70_reset R230, R231). The host keeps its own side. -/
def State.assertReset (s : State) : State :=
  { State.resetWith s.params with
    resetLine := true, host := s.host, busData := s.busData, draws := s.draws, epoch := s.epoch + 1 }

/-- One access of the host, already taken off its list. While the reset input is asserted every piece of state stays at its value
after reset, so a write is lost (70_reset R230; log 12). -/
def State.hostAct (s : State) (act : HostAct) : Host.Outcome State Fault Refusal :=
  match act with
  | .read bytes addr =>
    match accessFault s.params bytes addr with
    | some f => .fault f
    | none => .next (s.hostRead bytes (addr - s.params.base))
  | .write bytes addr data =>
    match accessFault s.params bytes addr with
    | some f => .fault f
    | none => if s.resetLine then .next s else s.hostWrite bytes (addr - s.params.base) data
  | .waitIdle =>
    let read := s.hostRead 4 0x010
    .next (if s.busy then { read with host := .waitIdle :: s.host } else read)
  | .assertReset => .next s.assertReset
  | .releaseReset => .next { s with resetLine := false }

/-- The host's step: its next access; with none left the machine stays idle and keeps all state (60_exceptions R217,
70_reset R232). -/
def hostStep (s : State) : Host.Outcome State Fault Refusal :=
  match s.host with
  | [] => .next s
  | act :: rest => State.hostAct { s with host := rest } act

end Sys2Proof.Machine
end

