-- ==== Sys2Proof/Machine/Step.lean ====
section
/-! DEFINITION. One step of the machine, and the placing of a command word where the next step runs it. -/

namespace Sys2Proof.Machine

/-- One step. While a command runs (BUSY = 1) the engine's step comes after `lat` more steps of the host or of nothing, so BUSY = 1
for at least one step and for finitely many (00_scope R8, 70_reset R234, R239; log 2); otherwise the host moves. While the reset
input is asserted the engine does not move (70_reset R230). -/
def step (s : State) : Host.Outcome State Fault Refusal :=
  if s.resetLine then hostStep s
  else if s.busy then
    match s.lat with
    | 0 => engineStep s
    | n + 1 => hostStep { s with lat := n }
  else hostStep s

/-- The state just after the host wrote this opcode-table word to CMD, with the engine's step next: the reset input released
(70_reset R234 step 2; log 3). -/
def State.withFetchWord (s : State) (nbits w : Nat) : State :=
  { s with cmd := tableWord nbits w, busy := true, awaiting := true, lat := 0, resetLine := false }

end Sys2Proof.Machine
end

