-- ==== Sys2Proof/Machine/HostText.lean ====
section
/-! DEFINITION. The host-side text forms: the binary-digit parser and the renderer (43_codec R177-R180). The engine has no command
for them (00_scope R5 (e)); the spec specifies them because its examples are written in their terms. -/

namespace Sys2Proof.Machine

/-- What the parser builds: a size in bits and the backing bytes, byte 0 first (R177). -/
structure Image where
  size : Nat
  bytes : List Byte
deriving DecidableEq, Repr

/-- WS: the six whitespace characters (R177). -/
def isSpace (c : Char) : Bool := [0x09, 0x0A, 0x0B, 0x0C, 0x0D, 0x20].contains c.toNat

/-- The string without its whitespace (R177). -/
def digitsOf (text : List Char) : List Char := text.filter fun c => !isSpace c

/-- A binary digit (R178). -/
def isDigit (c : Char) : Bool := c == '0' || c == '1'

/-- The bits of a string of digits, bit 0 first: the rightmost digit is bit 0 (R177). -/
def bitsOf (digits : List Char) : List Bool := digits.reverse.map (· == '1')

/-- The byte whose bit `j` is `f j` (R177). -/
def packByte (f : Nat → Bool) : Byte := (List.range 8).foldl (fun b j => if f j then b ||| bitMask j else b) 0x00

/-- The bytes that hold a list of bits, zero padded (R177). -/
def packBits (bits : List Bool) : List Byte :=
  (List.range (ceil8 bits.length)).map fun i => packByte fun j => bits.getD (8 * i + j) false

/-- The binary-digit string parser (R177, R178): any other character is InvalidArgument. -/
def parse (text : List Char) : Except ErrCode Image :=
  let digits := digitsOf text
  if digits.all isDigit then .ok { size := digits.length, bytes := packBits (bitsOf digits) }
  else .error .invalidArgument

/-- A byte's eight characters, bit 7 first (R179). -/
def bits8 (b : Byte) : List Char := (List.range 8).reverse.map fun j => if b.getLsbD j then '1' else '0'

/-- The renderer: the highest backing byte first, single spaces between (R179). -/
def render (bytes : List Byte) : List Char := [' '].intercalate (bytes.reverse.map bits8)

/-- A slot's backing bytes. The host's own read of them, with GETLEN and GETRB, is `State.withLengthRead` and
`State.withSliceRead` (R179; log 23). -/
def State.backing (s : State) (k : SlotId) : List Byte := (List.range (s.slot k).len).map (s.byte k)

/-- A slot's rendering: every backing byte, padding bits included, whatever the size (R179). A slot that holds no container has len 0
and renders as the empty string; what the host's own read gives for it is log 24. -/
def State.render (s : State) (k : SlotId) : List Char := Sys2Proof.Machine.render (s.backing k)

end Sys2Proof.Machine
end

