-- ==== Sys2Proof/Machine/HostProgram.lean ====
section
/-! DEFINITION. Host programs: the assembly text of a command, host lines and command lines (30_encoding R99), and the
pseudo-commands (R100), and the reading back of a slot for the renderer (43_codec R179), down to the accesses the host makes. -/

namespace Sys2Proof.Machine

/-! ## Assembly text (R99) -/

/-- A slot's name, `c0` to `c15`. -/
def slotText (k : SlotId) : String := "c" ++ toString k.toNat

/-- A value V. -/
def valueText (v : Bool) : String := if v then "1" else "0"

/-- One hexadecimal digit. -/
def hexDigit (n : BitVec 4) : String :=
  ["0", "1", "2", "3", "4", "5", "6", "7", "8", "9", "A", "B", "C", "D", "E", "F"].getD n.toNat ""

/-- A byte IMM8. -/
def immText (b : Byte) : String := "#0x" ++ hexDigit (b.extractLsb' 4 4) ++ hexDigit (b.extractLsb' 0 4)

/-- LDINT's width suffix. -/
def widthText : IntWidth → String
  | .w8 => "8"
  | .w16 => "16"
  | .w32 => "32"
  | .w64 => "64"

/-- The assembly text of a command (R99). -/
def asmText : Instr → String
  | .get d => "GET " ++ slotText d
  | .set d v => "SET " ++ slotText d ++ ", " ++ valueText v
  | .setbo d v => "SETBO " ++ slotText d ++ ", " ++ valueText v
  | .getb d => "GETB " ++ slotText d
  | .setb d imm => "SETB " ++ slotText d ++ ", " ++ immText imm
  | .setr d v => "SETR " ++ slotText d ++ ", " ++ valueText v
  | .setrb d imm => "SETRB " ++ slotText d ++ ", " ++ immText imm
  | .getrb d => "GETRB " ++ slotText d
  | .and d o => "AND " ++ slotText d ++ ", " ++ slotText o
  | .or d o => "OR " ++ slotText d ++ ", " ++ slotText o
  | .xor d o => "XOR " ++ slotText d ++ ", " ++ slotText o
  | .nor d o => "NOR " ++ slotText d ++ ", " ++ slotText o
  | .xnor d o => "XNOR " ++ slotText d ++ ", " ++ slotText o
  | .nand d o => "NAND " ++ slotText d ++ ", " ++ slotText o
  | .not d => "NOT " ++ slotText d
  | .new d => "NEW " ++ slotText d
  | .ldint d w => "LDINT." ++ widthText w ++ " " ++ slotText d
  | .ldbytes d => "LDBYTES " ++ slotText d
  | .clone d o => "CLONE " ++ slotText d ++ ", " ++ slotText o
  | .getsize d => "GETSIZE " ++ slotText d
  | .getlen d => "GETLEN " ++ slotText d

/-! ## Lines (R99) -/

/-- A line of a host program. -/
inductive Line where
  /-- `WR A, v` -/
  | wrA (v : Word)
  /-- `WR B, v` -/
  | wrB (v : Word)
  /-- `WR XLEN, v` -/
  | wrXlen (v : Word)
  /-- `WRX i, b0 b1 ...` -/
  | wrx (i : Nat) (bytes : List Byte)
  /-- A command line: write the encoding to CMD, then wait until BUSY = 0. -/
  | cmd (i : Instr)
deriving DecidableEq, Repr

/-- The bytes written to XBUF from index `i`, one access each. -/
def wrxActs (p : Params) : Nat → List Byte → List HostAct
  | _, [] => []
  | i, b :: bytes => .write 1 (p.base + Config.xbufOffset + i) (zextByte b) :: wrxActs p (i + 1) bytes

/-- The accesses of a line (R99, 20_memory R71). -/
def Line.acts (p : Params) : Line → List HostAct
  | .wrA v => [.write 4 (p.base + 0x004) v]
  | .wrB v => [.write 4 (p.base + 0x008) v]
  | .wrXlen v => [.write 4 (p.base + 0x014) v]
  | .wrx i bytes => wrxActs p i bytes
  | .cmd i => [.write 4 (p.base + 0x000) (encode i), .waitIdle]

/-- The accesses of a host program: its lines in order (R99). -/
def programActs (p : Params) (lines : List Line) : List HostAct := lines.flatMap (Line.acts p)

/-- The machine with a host program still to run (log 3). -/
def State.withProgram (s : State) (lines : List Line) : State := { s with host := programActs s.params lines }

/-! ## Pseudo-commands (R100) -/

/-- A pseudo-command. -/
inductive Pseudo where
  | get (d : SlotId) (pos : Word)
  | set (d : SlotId) (pos : Word) (v : Bool)
  | active (d : SlotId) (pos : Word)
  | passive (d : SlotId) (pos : Word)
  | setbit (d : SlotId) (byteIndex bitOffset : Word) (v : Bool)
  | getNthByte (d : SlotId) (n : Word)
  | setNthByte (d : SlotId) (n : Word) (b : Byte)
  | setRange (d : SlotId) (start stop : Word) (v : Bool)
  | activeRange (d : SlotId) (start stop : Word)
  | passiveRange (d : SlotId) (start stop : Word)
  | setRangeByte (d : SlotId) (start stop : Word) (b : Byte)
  | getRangeByte (d : SlotId) (start stop : Word)
  | new (d : SlotId) (k : Word)
  | newdef (d : SlotId)
  | ldint8 (d : SlotId) (v : Word)
  | ldint16 (d : SlotId) (v : Word)
  | ldint32 (d : SlotId) (v : Word)
  | ldint64 (d : SlotId) (v : BitVec 64)
  | ldbytes (d : SlotId) (bytes : List Byte)
  /-- The text already encoded by the host, an opaque function outside BACE (43_codec R176; log 18). -/
  | ldtext (d : SlotId) (encoded : List Byte)
  | ldbin (d : SlotId) (digits : List Char)
  | clone (d o : SlotId)
deriving DecidableEq, Repr

/-- The maximal runs of 1 bits as half-open ranges; `p` is the position of the list's first bit, `open?` the start of a run that
reaches it. -/
def runsFrom : List Bool → Nat → Option Nat → List (Nat × Nat)
  | [], _, none => []
  | [], p, some start => [(start, p)]
  | true :: bits, p, none => runsFrom bits (p + 1) (some p)
  | true :: bits, p, some start => runsFrom bits (p + 1) (some start)
  | false :: bits, p, none => runsFrom bits (p + 1) none
  | false :: bits, p, some start => (start, p) :: runsFrom bits (p + 1) none

/-- The lines that load bytes through XBUF (R100 `ldbytes`). DESIGN CHOICE where there are 2^32 bytes or more: XLEN is 32 bits and
takes their number mod 2^32 (log 22). -/
def loadLines (d : SlotId) (bytes : List Byte) : List Line :=
  [.wrx 0 bytes, .wrXlen (BitVec.ofNat 32 bytes.length), .cmd (.ldbytes d)]

/-- The lines that set one run of bits (R100 `ldbin`). DESIGN CHOICE from position 2^32 on: A and B take the bounds mod 2^32
(log 22). -/
def runLines (d : SlotId) (run : Nat × Nat) : List Line :=
  [.wrA (BitVec.ofNat 32 run.1), .wrB (BitVec.ofNat 32 run.2), .cmd (.setr d true)]

/-- The lines of a pseudo-command (R100). Only `ldbin` can fail, and then no line is issued (43_codec R178). DESIGN CHOICE where the
digits are 2^32 or more, of which R100 says nothing: A takes their number mod 2^32, so NEW builds a shorter container (log 22). -/
def Pseudo.lines : Pseudo → Except ErrCode (List Line)
  | .get d pos => .ok [.wrA pos, .cmd (.get d)]
  | .set d pos v => .ok [.wrA pos, .cmd (.set d v)]
  | .active d pos => .ok [.wrA pos, .cmd (.set d true)]
  | .passive d pos => .ok [.wrA pos, .cmd (.set d false)]
  | .setbit d bi bo v => .ok [.wrA bi, .wrB bo, .cmd (.setbo d v)]
  | .getNthByte d n => .ok [.wrA n, .cmd (.getb d)]
  | .setNthByte d n b => .ok [.wrA n, .cmd (.setb d b)]
  | .setRange d start stop v => .ok [.wrA start, .wrB stop, .cmd (.setr d v)]
  | .activeRange d start stop => .ok [.wrA start, .wrB stop, .cmd (.setr d true)]
  | .passiveRange d start stop => .ok [.wrA start, .wrB stop, .cmd (.setr d false)]
  | .setRangeByte d start stop b => .ok [.wrA start, .wrB stop, .cmd (.setrb d b)]
  | .getRangeByte d start stop => .ok [.wrA start, .wrB stop, .cmd (.getrb d)]
  | .new d k => .ok [.wrA k, .cmd (.new d)]
  | .newdef d => .ok [.wrA 32, .cmd (.new d)]
  | .ldint8 d v => .ok [.wrA v, .cmd (.ldint d .w8)]
  | .ldint16 d v => .ok [.wrA v, .cmd (.ldint d .w16)]
  | .ldint32 d v => .ok [.wrA v, .cmd (.ldint d .w32)]
  | .ldint64 d v => .ok [.wrA (v.extractLsb' 0 32), .wrB (v.extractLsb' 32 32), .cmd (.ldint d .w64)]
  | .ldbytes d bytes => .ok (loadLines d bytes)
  | .ldtext d encoded => .ok (loadLines d encoded)
  | .ldbin d digits =>
    match parse digits with
    | .error e => .error e
    | .ok image =>
      .ok ([.wrA (BitVec.ofNat 32 image.size), .cmd (.new d)] ++
        (runsFrom (bitsOf (digitsOf digits)) 0 none).flatMap (runLines d))
  | .clone d o => .ok [.cmd (.clone d o)]

/-! ## Reading a slot back (43_codec R179) -/

/-- The accesses that read slot `k`'s length: GETLEN, and a read of R. -/
def lengthActs (p : Params) (k : SlotId) : List HostAct := Line.acts p (.cmd (.getlen k)) ++ [.read 4 (p.base + 0x00C)]

/-- The lines that copy slot `k`'s `len` bytes to XBUF: none when `len` is 0, otherwise GETRB with A = 0 and B = `len`. -/
def sliceLines (k : SlotId) (len : Nat) : List Line :=
  if len = 0 then [] else [.wrA 0, .wrB (BitVec.ofNat 32 len), .cmd (.getrb k)]

/-- The reads of XBUF[0] to XBUF[n - 1], one byte each. -/
def xbufReads (p : Params) (n : Nat) : List HostAct := (List.range n).map fun i => .read 1 (p.base + Config.xbufOffset + i)

/-- The accesses that read slot `k`'s `len` bytes. -/
def sliceActs (p : Params) (k : SlotId) (len : Nat) : List HostAct := programActs p (sliceLines k len) ++ xbufReads p len

/-- The machine with the host about to read slot `k`'s length. -/
def State.withLengthRead (s : State) (k : SlotId) : State := { s with host := lengthActs s.params k }

/-- The machine with the host about to read slot `k`'s bytes, as many as the value it read last (log 23). DESIGN CHOICE where slot `k`
holds no container: GETLEN raised NoContainer and left R as it was, R179 does not say what the host does then, and this host takes
the old R as the length (log 24). -/
def State.withSliceRead (s : State) (k : SlotId) : State := { s with host := sliceActs s.params k s.busData.toNat }

/-- The bytes that the host has read back: XBUF[0] to XBUF[R - 1], where R still holds GETLEN's result. DESIGN CHOICE where the slot
holds no container: they are XBUF's old bytes, as many as the old R says (log 24). -/
def State.readBack (s : State) : List Byte := (List.range s.r.toNat).map s.xread

end Sys2Proof.Machine
end

