-- ==== Sys2Proof/Safety.lean ====
section
/-! DEFINITION. What claims are made of: the invariant of BACE's state (10_state R31, R32, R35), the state that reset leaves
(R49), and the end of a host program's run (70_reset R238). -/

namespace Sys2Proof.Machine

/-- A slot's invariant: storage in canonical form inside MAX_BYTES, the backing length exactly what the size needs and at most
MAX_BYTES (10_state R31, R32), every backing byte written (R33), and nothing in a slot that holds no container (R35, R49). -/
abbrev Slot.Inv (maxBytes : Nat) (c : Slot) : Prop :=
  Mem.wf c.buf = true ∧ (∀ x ∈ c.buf, x.1 < maxBytes) ∧ c.len = ceil8 c.size ∧ c.len ≤ maxBytes ∧
    (∀ i < c.len, (c.buf.get? i).isSome = true) ∧ (c.valid = false → c.len = 0 ∧ c.size = 0)

/-- XBUF's invariant: canonical form inside MAX_BYTES (10_state R43). -/
abbrev State.XbufInv (s : State) : Prop := Mem.wf s.xbuf = true ∧ ∀ x ∈ s.xbuf, x.1 < s.params.maxBytes

/-- Every piece of BACE's state at its value after reset (10_state R49). -/
abbrev State.AtReset (s : State) : Prop :=
  s.slots = Vector.replicate 16 Slot.reset ∧ s.a = 0 ∧ s.b = 0 ∧ s.cmd = 0 ∧ s.r = 0 ∧ s.xlen = 0 ∧ s.xbuf = [] ∧
    s.busy = false ∧ s.errSeen = false ∧ s.err = .ok

/-- The invariant of the whole machine. -/
abbrev State.Inv (s : State) : Prop :=
  s.params.wf ∧ (∀ k : SlotId, Slot.Inv s.params.maxBytes (s.slot k)) ∧
    (∀ k : SlotId, s.params.nslots ≤ k.toNat → (s.slot k).valid = false) ∧ s.XbufInv ∧
    (s.err ≠ .ok → s.errSeen = true) ∧ (s.busy = true → s.awaiting = true) ∧ (s.resetLine = true → s.AtReset)

/-- Is the access a write of CMD, which issues a command (70_reset R234 step 2)? -/
def HostAct.issues (p : Params) : HostAct → Bool
  | .write bytes addr _ => bytes == 4 && addr == p.base
  | .read _ _ | .waitIdle | .assertReset | .releaseReset => false

/-- The host's next access is the write of a command to CMD. -/
def State.issuesNext (s : State) : Bool :=
  match s.host with
  | act :: _ => act.issues s.params
  | [] => false

/-- The host's next access is a read of STATUS, in its wait loop or by itself, and sees BUSY = 0 (70_reset R234 step 4). -/
def State.seesIdle (s : State) : Bool :=
  !s.busy &&
    match s.host with
    | .waitIdle :: _ => true
    | .read bytes addr :: _ => bytes == 4 && addr == s.params.base + 0x010
    | [] | .write _ _ _ :: _ | .assertReset :: _ | .releaseReset :: _ => false

/-- From `s`, where the host writes CMD for its last command line, a host program's run ends in `t`: `t` is the state at the first
read after that write that sees BUSY = 0, and no write of CMD is left in it (70_reset R238). Host lines after the last command line
may be; they are still to come in `t`. -/
def EndsRun (s t : State) : Prop :=
  s.issuesNext = true ∧
    ∃ (n : Nat) (u : State), 0 < n ∧ Host.Core.run core n s = .next u ∧ u.seesIdle = true ∧ step u = .next t ∧
      (∀ m, 0 < m → m < n → ∀ v : State, Host.Core.run core m s = .next v → v.seesIdle = false) ∧
      t.host.all (fun act => !act.issues t.params) = true

/-- A safe outcome of a step: the host broke no duty of 70_reset R235 and 20_memory R72. -/
def Safe (o : Host.Outcome State Fault Refusal) : Prop := ∃ t, o = .next t

/-- The command completes with an error code and changes STATUS alone (60_exceptions R206). -/
def Fails (i : Instr) (s : State) (c : ErrCode) : Prop := exec i s = .next { s with busy := false, errSeen := true, err := c }

/-- From `s` to `t` a command completed with OK and changed slot `d` alone: no other slot, no register but STATUS, no byte of XBUF. -/
def WroteSlot (d : SlotId) (s t : State) : Prop :=
  t = { s with slots := t.slots, busy := false, err := .ok } ∧ ∀ j, j ≠ d → t.slot j = s.slot j

/-- From `s` to `t` bit `p` of slot `d` was written and nothing else: exact-fit growth with zero bytes, the size past the bit. -/
def WroteBit (d : SlotId) (p : Nat) (v : Bool) (s t : State) : Prop :=
  WroteSlot d s t ∧ (t.slot d).valid = true ∧ (t.slot d).len = max (s.slot d).len (p / 8 + 1) ∧
    (t.slot d).size = max (s.slot d).size (p + 1) ∧
    ∀ q, q < 8 * (t.slot d).len →
      t.readBit d q = if q = p then v else if q < 8 * (s.slot d).len then s.readBit d q else false

/-- The engine's step is next: a command is running, its time is over, and the reset input is released. -/
def EngineNext (s : State) : Prop := s.resetLine = false ∧ s.busy = true ∧ s.lat = 0

/-- The host's step is next, with this access at the head of its list and BUSY as it stands. -/
def HostNext (s : State) (act : HostAct) (rest : List HostAct) : Prop :=
  s.host = act :: rest ∧ (s.resetLine = true ∨ s.busy = false ∨ s.lat ≠ 0)

/-- The host's step is next on an idle machine whose last command the host has seen end. -/
def IdleNext (s : State) (act : HostAct) (rest : List HostAct) : Prop :=
  s.host = act :: rest ∧ s.resetLine = false ∧ s.busy = false ∧ s.awaiting = false

end Sys2Proof.Machine
end

