-- ==== Sys2Proof/Certificates/Slice0/Obligations.lean ====
section
/-! DEFINITION. The statements about the model, each from the spec's numbered rules; the names before them are the vocabulary they
are written in. -/

namespace Sys2Proof.Machine

/-- The command names a slot that holds no container where it needs one (60_exceptions R204). -/
def namesNoContainer (i : Instr) (s : State) : Bool :=
  (!i.isConstructor && !(s.slot i.receiver).valid) ||
    match i.other with
    | some o => !(s.slot o).valid
    | none => false

/-- The operands are among those of 60_exceptions R201. -/
def badArgument (i : Instr) (s : State) : Bool :=
  match i with
  | .new _ | .get _ | .set _ _ | .getb _ | .setb _ _ => decide (sint32 s.a < 0)
  | .setbo _ _ => decide (sint32 s.a < 0 ∨ sint32 s.b < 0 ∨ 7 < sint32 s.b)
  | .setr _ _ | .setrb _ _ | .getrb _ => decide (sint32 s.a < 0 ∨ sint32 s.b ≤ sint32 s.a)
  | .and _ _ | .or _ _ | .xor _ _ | .nor _ _ | .xnor _ _ | .nand _ _ | .not _ => false
  | .ldint _ _ | .ldbytes _ | .clone _ _ | .getsize _ | .getlen _ => false

/-- The read lies beyond the container (60_exceptions R202). -/
def beyondContainer (i : Instr) (s : State) : Bool :=
  match i with
  | .get d => decide (((s.slot d).size : Int) ≤ sint32 s.a)
  | .getb d => decide (((s.slot d).len : Int) ≤ sint32 s.a)
  | .getrb d => decide (((s.slot d).len : Int) < sint32 s.b)
  | .set _ _ | .setbo _ _ | .setb _ _ | .setr _ _ | .setrb _ _ => false
  | .and _ _ | .or _ _ | .xor _ _ | .nor _ _ | .xnor _ _ | .nand _ _ | .not _ => false
  | .new _ | .ldint _ _ | .ldbytes _ | .clone _ _ | .getsize _ | .getlen _ => false

/-- The command would need a backing length above MAX_BYTES (60_exceptions R203). -/
def beyondCapacity (i : Instr) (s : State) : Bool :=
  match i with
  | .set _ _ => decide ((s.params.maxBytes : Int) < sint32 s.a / 8 + 1)
  | .setbo _ _ | .setb _ _ => decide ((s.params.maxBytes : Int) < sint32 s.a + 1)
  | .setr _ _ => decide ((s.params.maxBytes : Int) < (sint32 s.b - 1) / 8 + 1)
  | .setrb _ _ => decide ((s.params.maxBytes : Int) < sint32 s.b)
  | .new _ => decide ((s.params.maxBytes : Int) < (sint32 s.a + 7) / 8)
  | .ldbytes _ => decide (s.params.maxBytes < s.xlen.toNat)
  | .get _ | .getb _ | .getrb _ => false
  | .and _ _ | .or _ _ | .xor _ _ | .nor _ _ | .xnor _ _ | .nand _ _ | .not _ => false
  | .ldint _ _ | .clone _ _ | .getsize _ | .getlen _ => false

/-- The one code a decoded command reports: the first condition in the order of 60_exceptions R207. -/
def reportedCode (i : Instr) (s : State) : ErrCode :=
  if namesNoContainer i s then .noContainer
  else if badArgument i s then .invalidArgument
  else if beyondContainer i s then .outOfRange
  else if beyondCapacity i s then .capacityExceeded
  else .ok

/-- The six binary logic commands, AND, OR, XOR, NOR, XNOR and NAND, each with its match word (42_logic R153 to R158) and the
Boolean function of its truth table (R151). -/
def binaryKinds : List ((SlotId → SlotId → Instr) × Word × (Bool → Bool → Bool)) :=
  [(.and, 0x00000030, fun x y => x && y), (.or, 0x00000031, fun x y => x || y), (.xor, 0x00000032, fun x y => x != y),
    (.nor, 0x00000033, fun x y => !(x || y)), (.xnor, 0x00000034, fun x y => x == y), (.nand, 0x00000035, fun x y => !(x && y))]

/-- The rows of spec/opcode_table.json: match, mask, and whether the row uses S. -/
def opcodeRows : List (Word × Word × Bool) :=
  [(0x10, 0xFFFFF0FF, false), (0x11, 0xFFFEF0FF, false), (0x12, 0xFFFEF0FF, false), (0x13, 0xFFFFF0FF, false),
    (0x14, 0x00FFF0FF, false), (0x20, 0xFFFEF0FF, false), (0x21, 0x00FFF0FF, false), (0x22, 0xFFFFF0FF, false)] ++
  [(0x30, 0xFFFF00FF, true), (0x31, 0xFFFF00FF, true), (0x32, 0xFFFF00FF, true), (0x33, 0xFFFF00FF, true),
    (0x34, 0xFFFF00FF, true), (0x35, 0xFFFF00FF, true), (0x36, 0xFFFFF0FF, false)] ++
  [(0x01, 0xFFFFF0FF, false), (0x02, 0xFFF9F0FF, false), (0x03, 0xFFFFF0FF, false), (0x04, 0xFFFF00FF, true),
    (0x40, 0xFFFFF0FF, false), (0x41, 0xFFFFF0FF, false)]

/-- The sample encodings of 30_encoding R101. -/
def sampleWords : List (Word × Instr) :=
  [(0x00000001, .new 0), (0x00020102, .ldint 1 .w16), (0x00060002, .ldint 0 .w64), (0x00000303, .ldbytes 3),
    (0x00001204, .clone 2 1), (0x00000010, .get 0), (0x00010011, .set 0 true), (0x00000512, .setbo 5 false),
    (0x00000013, .getb 0)] ++
  [(0xA5000014, .setb 0 0xA5), (0x00010020, .setr 0 true), (0xFF000121, .setrb 1 0xFF), (0x00000022, .getrb 0),
    (0x00002130, .and 1 2), (0x00002134, .xnor 1 2), (0x00000136, .not 1), (0x00000040, .getsize 0),
    (0x00000F41, .getlen 15)]

/-- The commands that 20_memory R70 says may be repeated without effect. -/
def repeatable : Instr → Bool
  | .xor _ _ | .nor _ _ | .xnor _ _ | .nand _ _ | .not _ => false
  | .get _ | .set _ _ | .setbo _ _ | .getb _ | .setb _ _ | .setr _ _ | .setrb _ _ | .getrb _ | .and _ _ | .or _ _ => true
  | .new _ | .ldint _ _ | .ldbytes _ | .clone _ _ | .getsize _ | .getlen _ => true

/-- The commands that read register A (30_encoding R93). -/
def readsA : Instr → Bool
  | .new _ | .ldint _ _ | .get _ | .set _ _ | .setbo _ _ | .getb _ | .setb _ _ | .setr _ _ | .setrb _ _ | .getrb _ => true
  | .ldbytes _ | .clone _ _ | .and _ _ | .or _ _ | .xor _ _ | .nor _ _ | .xnor _ _ | .nand _ _ | .not _ => false
  | .getsize _ | .getlen _ => false

/-- The commands that read register B (30_encoding R93). -/
def readsB : Instr → Bool
  | .ldint _ w => w == .w64
  | .setbo _ _ | .setr _ _ | .setrb _ _ | .getrb _ => true
  | .new _ | .get _ | .set _ _ | .getb _ | .setb _ _ | .ldbytes _ | .clone _ _ | .and _ _ | .or _ _ | .xor _ _ => false
  | .nor _ _ | .xnor _ _ | .nand _ _ | .not _ | .getsize _ | .getlen _ => false

/-- The state after SET of each position in turn, A holding the position (41_range R135). -/
def setEach (d : SlotId) (v : Bool) : State → List Nat → State
  | s, [] => s
  | s, p :: ps =>
    match exec (.set d v) { s with a := BitVec.ofNat 32 p } with
    | .next t => setEach d v t ps
    | .fault _ | .refused _ => s

/-- Digits padded on the left with '0' to a multiple of 8 and split into groups of 8 from the left (43_codec R180). -/
def regroup (digits : List Char) : List (List Char) :=
  let padded := List.replicate (8 * ceil8 digits.length - digits.length) '0' ++ digits
  (List.range (ceil8 digits.length)).map fun i => (padded.drop (8 * i)).take 8

end Sys2Proof.Machine

open Sys2Proof Sys2Proof.Machine

/-! ## Encoding -/

/-- 30_encoding R92, R98: the decoder reads every command back from its one encoding, for every NSLOTS. -/
def Obligations.DecodeReadsBackEveryEncoding : Prop :=
  ∀ n i, Instr.wellFormed n i = true → decode n (encode i) = .ok i

/-- 30_encoding R92: "each opcode has exactly one encoding per choice of its used field values". -/
def Obligations.EveryDecodedWordIsItsEncoding : Prop :=
  ∀ n w i, decode n w = .ok i → encode i = w ∧ Instr.wellFormed n i = true

/-- opcode_table.json and 95_test_vectors section 2: a word decodes exactly when it matches a row of the table and its slots exist. -/
def Obligations.DecoderFollowsTheOpcodeTable : Prop :=
  ∀ n w, (∃ i, decode n w = .ok i) ↔
    ∃ r ∈ opcodeRows, w &&& r.2.1 = r.1 ∧ (w.extractLsb' 8 4).toNat < n ∧ (r.2.2 = true → (w.extractLsb' 12 4).toNat < n)

/-- 30_encoding R101: the sample words, with the two that decode to IllegalCommand. -/
def Obligations.SampleWordsDecode : Prop :=
  (∀ p ∈ sampleWords, decode 16 p.1 = .ok p.2 ∧ encode p.2 = p.1) ∧
    decode 16 0x00010010 = .error .unusedNonzero ∧ decode 16 0x00080011 = .error .reservedNonzero

/-- 60_exceptions R205, 30_encoding R95, R91, R87: the engine completes an illegal word with IllegalCommand and changes nothing
else; R95's unassigned opcodes, a non-zero RSV, a receiver that does not exist, and every other word that does not decode. -/
def Obligations.IllegalWordsChangeOnlyStatus : Prop :=
  ∀ s, EngineNext s →
    ((s.cmd.extractLsb' 0 8).toNat ∈ [0x00] ++ List.range' 0x05 11 ++ List.range' 0x15 11 ++ List.range' 0x23 13 ++
        List.range' 0x37 9 ++ List.range' 0x42 190 ∨
      s.cmd.extractLsb' 19 5 ≠ 0 ∨ s.params.nslots ≤ (s.cmd.extractLsb' 8 4).toNat ∨
      ∃ r, decode s.params.nslots s.cmd = .error r) →
    step s = .next { s with busy := false, errSeen := true, err := .illegalCommand }

/-! ## One step -/

/-- 70_reset R234 step 3: the engine's step runs the command that CMD's word decodes to, and nothing around it. -/
def Obligations.StepRunsTheDecodedCommand : Prop :=
  ∀ s i, EngineNext s → decode s.params.nslots s.cmd = .ok i → step s = exec i s

/-- A placed opcode-table word is what the very next step runs. -/
def Obligations.PlacedWordRunsNext : Prop :=
  ∀ (s : State) nbits w i, s.params.nslots = 16 → decodeTableWord nbits w = some i →
    step (s.withFetchWord nbits w) = exec i (s.withFetchWord nbits w)

/-- 60_exceptions R206: every command completes: BUSY 0, ERRSEEN sticky; with its own effect and code OK exactly when no error
condition of R201 to R204 holds. -/
def Obligations.EveryCommandCompletes : Prop :=
  ∀ i s, ∃ t, exec i s = .next t ∧ t.busy = false ∧ t.err = reportedCode i s ∧
    t.errSeen = (s.errSeen || decide (reportedCode i s ≠ .ok))

/-- 60_exceptions R206, R207, 00_scope R15: a command with an error reports the first condition in R207's order and changes
nothing but STATUS. -/
def Obligations.FailedCommandsChangeOnlyStatus : Prop :=
  ∀ i s, reportedCode i s ≠ .ok → Fails i s (reportedCode i s)

/-- 70_reset R239: the time to completion is finite: a waiting host sees the running command end. -/
def Obligations.RunningCommandEnds : Prop :=
  ∀ s : State, s.resetLine = false → s.busy = true → (s.host = [] ∨ ∃ rest, s.host = .waitIdle :: rest) →
    ∃ t : State, Host.Core.run core (s.lat + 1) s = .next t ∧ t.busy = false ∧ t.host = s.host

/-! ## Bit and byte access -/

/-- 40_bit_access R111, whole. -/
def Obligations.GetReadsOneBit : Prop :=
  ∀ d s,
    ((s.slot d).valid = true → 0 ≤ sint32 s.a → sint32 s.a < (s.slot d).size →
      exec (.get d) s = .next { s with
        r := ((s.byte d ((sint32 s.a).toNat / 8) >>> ((sint32 s.a).toNat % 8)) &&& 1).setWidth 32, busy := false, err := .ok }) ∧
    ((s.slot d).valid = false → Fails (.get d) s .noContainer) ∧
    ((s.slot d).valid = true → sint32 s.a < 0 → Fails (.get d) s .invalidArgument) ∧
    ((s.slot d).valid = true → 0 ≤ sint32 s.a → (s.slot d).size ≤ sint32 s.a → Fails (.get d) s .outOfRange) ∧
    encode (.get d) &&& 0xFFFFF0FF = 0x00000010

/-- 40_bit_access R112, whole. -/
def Obligations.SetWritesOneBit : Prop :=
  ∀ d v s,
    ((s.slot d).valid = true → 0 ≤ sint32 s.a → sint32 s.a / 8 + 1 ≤ s.params.maxBytes →
      ∃ t, exec (.set d v) s = .next t ∧ WroteBit d (sint32 s.a).toNat v s t) ∧
    ((s.slot d).valid = false → Fails (.set d v) s .noContainer) ∧
    ((s.slot d).valid = true → sint32 s.a < 0 → Fails (.set d v) s .invalidArgument) ∧
    ((s.slot d).valid = true → 0 ≤ sint32 s.a → s.params.maxBytes < sint32 s.a / 8 + 1 →
      Fails (.set d v) s .capacityExceeded) ∧
    encode (.set d v) &&& 0xFFFEF0FF = 0x00000011

/-- 40_bit_access R113, whole. -/
def Obligations.SetboWritesOneBit : Prop :=
  ∀ d v s,
    ((s.slot d).valid = true → 0 ≤ sint32 s.a → 0 ≤ sint32 s.b → sint32 s.b ≤ 7 → sint32 s.a + 1 ≤ s.params.maxBytes →
      ∃ t, exec (.setbo d v) s = .next t ∧ WroteBit d (8 * sint32 s.a + sint32 s.b).toNat v s t) ∧
    ((s.slot d).valid = false → Fails (.setbo d v) s .noContainer) ∧
    ((s.slot d).valid = true → (sint32 s.a < 0 ∨ sint32 s.b < 0 ∨ 7 < sint32 s.b) → Fails (.setbo d v) s .invalidArgument) ∧
    ((s.slot d).valid = true → 0 ≤ sint32 s.a → 0 ≤ sint32 s.b → sint32 s.b ≤ 7 → s.params.maxBytes < sint32 s.a + 1 →
      Fails (.setbo d v) s .capacityExceeded) ∧
    encode (.setbo d v) &&& 0xFFFEF0FF = 0x00000012

/-- 40_bit_access R113, corner cases: SETBO with (bi, bo) leaves the state that SET with pos = 8 bi + bo leaves, but for A. -/
def Obligations.SetboIsSetAtItsPosition : Prop :=
  ∀ d v s x t, 0 ≤ sint32 s.a → 0 ≤ sint32 s.b → sint32 s.b ≤ 7 → sint32 x = 8 * sint32 s.a + sint32 s.b →
    exec (.setbo d v) s = .next t → exec (.set d v) { s with a := x } = .next { t with a := x }

/-- 40_bit_access R114, whole. -/
def Obligations.GetbReadsOneByte : Prop :=
  ∀ d s,
    ((s.slot d).valid = true → 0 ≤ sint32 s.a → sint32 s.a < (s.slot d).len →
      ∃ t, exec (.getb d) s = .next t ∧ t = { s with r := t.r, busy := false, err := .ok } ∧
        t.r.toNat = (s.byte d (sint32 s.a).toNat).toNat) ∧
    ((s.slot d).valid = false → Fails (.getb d) s .noContainer) ∧
    ((s.slot d).valid = true → sint32 s.a < 0 → Fails (.getb d) s .invalidArgument) ∧
    ((s.slot d).valid = true → 0 ≤ sint32 s.a → (s.slot d).len ≤ sint32 s.a → Fails (.getb d) s .outOfRange) ∧
    encode (.getb d) &&& 0xFFFFF0FF = 0x00000013

/-- 40_bit_access R115, whole. -/
def Obligations.SetbWritesOneByte : Prop :=
  ∀ d imm s,
    ((s.slot d).valid = true → 0 ≤ sint32 s.a → sint32 s.a + 1 ≤ s.params.maxBytes →
      ∃ t, exec (.setb d imm) s = .next t ∧ WroteSlot d s t ∧ (t.slot d).valid = true ∧
        (t.slot d).len = max (s.slot d).len ((sint32 s.a).toNat + 1) ∧
        (t.slot d).size = max (s.slot d).size (8 * ((sint32 s.a).toNat + 1)) ∧
        ∀ i, i < (t.slot d).len → t.byte d i =
          if i = (sint32 s.a).toNat then imm else if i < (s.slot d).len then s.byte d i else 0) ∧
    ((s.slot d).valid = false → Fails (.setb d imm) s .noContainer) ∧
    ((s.slot d).valid = true → sint32 s.a < 0 → Fails (.setb d imm) s .invalidArgument) ∧
    ((s.slot d).valid = true → 0 ≤ sint32 s.a → s.params.maxBytes < sint32 s.a + 1 →
      Fails (.setb d imm) s .capacityExceeded) ∧
    encode (.setb d imm) &&& 0x00FFF0FF = 0x00000014

/-- 40_bit_access R116, whole. -/
def Obligations.SetThenGetReadsTheValue : Prop :=
  ∀ d v s, (s.slot d).valid = true → 0 ≤ sint32 s.a → sint32 s.a / 8 < s.params.maxBytes →
    ∃ t u, exec (.set d v) s = .next t ∧ exec (.get d) t = .next u ∧ u.err = .ok ∧ u.r = if v then 1 else 0

/-- 20_memory R60, R63: the bit that GET sees is bit `p mod 8` of the byte that GETB reads at `p div 8`. -/
def Obligations.GetAgreesWithGetb : Prop :=
  ∀ d s x, s.Inv → (s.slot d).valid = true → 0 ≤ sint32 s.a → sint32 s.a < (s.slot d).size → sint32 x = sint32 s.a / 8 →
    ∃ t u, exec (.get d) s = .next t ∧ exec (.getb d) { s with a := x } = .next u ∧
      t.r = (u.r >>> ((sint32 s.a).toNat % 8)) &&& 1

/-! ## Ranges -/

/-- 41_range R131 and the three laws of R134. -/
def Obligations.SetrWritesTheRange : Prop :=
  ∀ d v s,
    ((s.slot d).valid = true → 0 ≤ sint32 s.a → sint32 s.a < sint32 s.b → (sint32 s.b - 1) / 8 + 1 ≤ s.params.maxBytes →
      ∃ t, exec (.setr d v) s = .next t ∧ WroteSlot d s t ∧ (t.slot d).valid = true ∧
        ((t.slot d).len : Int) = max ((s.slot d).len : Int) ((sint32 s.b - 1) / 8 + 1) ∧
        ((t.slot d).size : Int) = max ((s.slot d).size : Int) (sint32 s.b) ∧
        ∀ q, q < 8 * (t.slot d).len → t.readBit d q =
          if sint32 s.a ≤ q ∧ q < sint32 s.b then v else if q < 8 * (s.slot d).len then s.readBit d q else false) ∧
    ((s.slot d).valid = false → Fails (.setr d v) s .noContainer) ∧
    ((s.slot d).valid = true → (sint32 s.a < 0 ∨ sint32 s.b ≤ sint32 s.a) → Fails (.setr d v) s .invalidArgument) ∧
    ((s.slot d).valid = true → 0 ≤ sint32 s.a → sint32 s.a < sint32 s.b → s.params.maxBytes < (sint32 s.b - 1) / 8 + 1 →
      Fails (.setr d v) s .capacityExceeded) ∧
    encode (.setr d v) &&& 0xFFFEF0FF = 0x00000020

/-- 41_range R135, whole: one SETR leaves the slot that SETs of its positions leave. -/
def Obligations.SetrIsTheSetsOfItsPositions : Prop :=
  ∀ d v s t, s.Inv → (s.slot d).valid = true → 0 ≤ sint32 s.a → sint32 s.a < sint32 s.b →
    (sint32 s.b - 1) / 8 + 1 ≤ s.params.maxBytes → exec (.setr d v) s = .next t →
    (setEach d v s (List.range' (sint32 s.a).toNat (sint32 s.b - sint32 s.a).toNat)).slot d = t.slot d

/-- 41_range R132, whole. -/
def Obligations.SetrbFillsTheBytes : Prop :=
  ∀ d imm s,
    ((s.slot d).valid = true → 0 ≤ sint32 s.a → sint32 s.a < sint32 s.b → sint32 s.b ≤ s.params.maxBytes →
      ∃ t, exec (.setrb d imm) s = .next t ∧ WroteSlot d s t ∧ (t.slot d).valid = true ∧
        ((t.slot d).len : Int) = max ((s.slot d).len : Int) (sint32 s.b) ∧
        ((t.slot d).size : Int) = max ((s.slot d).size : Int) (8 * sint32 s.b) ∧
        ∀ i, i < (t.slot d).len → t.byte d i =
          if sint32 s.a ≤ i ∧ i < sint32 s.b then imm else if i < (s.slot d).len then s.byte d i else 0) ∧
    ((s.slot d).valid = false → Fails (.setrb d imm) s .noContainer) ∧
    ((s.slot d).valid = true → (sint32 s.a < 0 ∨ sint32 s.b ≤ sint32 s.a) → Fails (.setrb d imm) s .invalidArgument) ∧
    ((s.slot d).valid = true → 0 ≤ sint32 s.a → sint32 s.a < sint32 s.b → s.params.maxBytes < sint32 s.b →
      Fails (.setrb d imm) s .capacityExceeded) ∧
    encode (.setrb d imm) &&& 0x00FFF0FF = 0x00000021

/-- 41_range R133, whole: XBUF below the slice's length, XLEN, and nothing else. -/
def Obligations.GetrbCopiesTheSlice : Prop :=
  ∀ d s,
    ((s.slot d).valid = true → 0 ≤ sint32 s.a → sint32 s.a < sint32 s.b → sint32 s.b ≤ (s.slot d).len →
      ∃ t, exec (.getrb d) s = .next t ∧ t = { s with xbuf := t.xbuf, xlen := t.xlen, busy := false, err := .ok } ∧
        (t.xlen.toNat : Int) = sint32 s.b - sint32 s.a ∧
        ∀ i : Nat, t.xread i = if i < sint32 s.b - sint32 s.a then s.byte d ((sint32 s.a).toNat + i) else s.xread i) ∧
    ((s.slot d).valid = false → Fails (.getrb d) s .noContainer) ∧
    ((s.slot d).valid = true → (sint32 s.a < 0 ∨ sint32 s.b ≤ sint32 s.a) → Fails (.getrb d) s .invalidArgument) ∧
    ((s.slot d).valid = true → 0 ≤ sint32 s.a → sint32 s.a < sint32 s.b → (s.slot d).len < sint32 s.b →
      Fails (.getrb d) s .outOfRange) ∧
    encode (.getrb d) &&& 0xFFFFF0FF = 0x00000022

/-! ## Logic -/

/-- 42_logic R150 to R158, R161: AND, OR, XOR, NOR, XNOR and NAND, also with one slot named twice: every bit of the receiver's
backing bytes by the truth table, a shorter operand padded with 0, and nothing else. -/
def Obligations.BinaryLogicFollowsTheTruthTables : Prop :=
  ∀ k ∈ binaryKinds, ∀ d o s,
    ((s.slot d).valid = true → (s.slot o).valid = true →
      ∃ t, exec (k.1 d o) s = .next t ∧ WroteSlot d s t ∧ (t.slot d).valid = true ∧ (t.slot d).len = (s.slot d).len ∧
        (t.slot d).size = (s.slot d).size ∧
        ∀ p, p < 8 * (s.slot d).len →
          t.readBit d p = k.2.2 (s.readBit d p) (if p < 8 * (s.slot o).len then s.readBit o p else false)) ∧
    ((s.slot d).valid = false ∨ (s.slot o).valid = false → Fails (k.1 d o) s .noContainer) ∧
    encode (k.1 d o) &&& 0xFFFF00FF = k.2.1

/-- 42_logic R159, whole. -/
def Obligations.NotComplementsEveryBackingByte : Prop :=
  ∀ d s,
    ((s.slot d).valid = true →
      ∃ t, exec (.not d) s = .next t ∧ WroteSlot d s t ∧ (t.slot d).valid = true ∧ (t.slot d).len = (s.slot d).len ∧
        (t.slot d).size = (s.slot d).size ∧ ∀ i, i < (s.slot d).len → (t.byte d i).toNat = 0xFF - (s.byte d i).toNat) ∧
    ((s.slot d).valid = false → Fails (.not d) s .noContainer) ∧
    encode (.not d) &&& 0xFFFFF0FF = 0x00000036

/-- 42_logic R160, whole. -/
def Obligations.NotTwiceRestores : Prop :=
  ∀ d s, (s.slot d).valid = true →
    ∃ t u, exec (.not d) s = .next t ∧ exec (.not d) t = .next u ∧ (∀ i, i < (s.slot d).len → u.byte d i = s.byte d i) ∧
      (t.slot d).len = (s.slot d).len ∧ (t.slot d).size = (s.slot d).size ∧
      (u.slot d).len = (s.slot d).len ∧ (u.slot d).size = (s.slot d).size

/-- 20_memory R81 and the corner cases with s = d of 42_logic R153 to R158: AND and OR change nothing, XOR clears, XNOR sets, NOR and
NAND are NOT. -/
def Obligations.LogicOfASlotWithItself : Prop :=
  ∀ d s, s.Inv → (s.slot d).valid = true →
    exec (.and d d) s = .next { s with busy := false, err := .ok } ∧
    exec (.or d d) s = .next { s with busy := false, err := .ok } ∧
    (∃ t, exec (.xor d d) s = .next t ∧ WroteSlot d s t ∧ ∀ i, i < (s.slot d).len → t.byte d i = 0x00) ∧
    (∃ t, exec (.xnor d d) s = .next t ∧ WroteSlot d s t ∧ ∀ i, i < (s.slot d).len → t.byte d i = 0xFF) ∧
    exec (.nor d d) s = exec (.not d) s ∧ exec (.nand d d) s = exec (.not d) s

/-! ## Constructors and queries -/

/-- 43_codec R170, whole. -/
def Obligations.NewConstructsZeros : Prop :=
  ∀ d s,
    (0 ≤ sint32 s.a → (sint32 s.a + 7) / 8 ≤ s.params.maxBytes →
      ∃ t, exec (.new d) s = .next t ∧ WroteSlot d s t ∧ (t.slot d).valid = true ∧
        ((t.slot d).len : Int) = (sint32 s.a + 7) / 8 ∧ ((t.slot d).size : Int) = sint32 s.a ∧
        ∀ i, i < (t.slot d).len → t.byte d i = 0x00) ∧
    (sint32 s.a < 0 → Fails (.new d) s .invalidArgument) ∧
    (0 ≤ sint32 s.a → s.params.maxBytes < (sint32 s.a + 7) / 8 → Fails (.new d) s .capacityExceeded) ∧
    encode (.new d) &&& 0xFFFFF0FF = 0x00000001

/-- 43_codec R172, whole, with 20_memory R61: the low bytes of B:A, little-endian. -/
def Obligations.LdintStoresLittleEndian : Prop :=
  ∀ d w s,
    (∃ t, exec (.ldint d w) s = .next t ∧ WroteSlot d s t ∧ (t.slot d).valid = true ∧
      (t.slot d).len = 2 ^ w.code.toNat ∧ (t.slot d).size = 8 * 2 ^ w.code.toNat ∧
      (∀ i, i < 2 ^ w.code.toNat → (t.byte d i).toNat = (s.b.toNat * 2 ^ 32 + s.a.toNat) / 256 ^ i % 256) ∧
      t.memRead d 0 (2 ^ w.code.toNat) = (s.b.toNat * 2 ^ 32 + s.a.toNat) % 256 ^ 2 ^ w.code.toNat) ∧
    encode (.ldint d w) &&& 0xFFF9F0FF = 0x00000002

/-- 43_codec R173, whole: XBUF and XLEN are unchanged (WroteSlot). -/
def Obligations.LdbytesLoadsXbuf : Prop :=
  ∀ d s,
    (s.xlen.toNat ≤ s.params.maxBytes →
      ∃ t, exec (.ldbytes d) s = .next t ∧ WroteSlot d s t ∧ (t.slot d).valid = true ∧ (t.slot d).len = s.xlen.toNat ∧
        (t.slot d).size = 8 * s.xlen.toNat ∧ ∀ i, i < s.xlen.toNat → t.byte d i = s.xread i) ∧
    (s.params.maxBytes < s.xlen.toNat → Fails (.ldbytes d) s .capacityExceeded) ∧
    encode (.ldbytes d) &&& 0xFFFFF0FF = 0x00000003

/-- 43_codec R174, whole. -/
def Obligations.CloneCopiesTheContainer : Prop :=
  ∀ d o s,
    ((s.slot o).valid = true → d ≠ o →
      ∃ t, exec (.clone d o) s = .next t ∧ WroteSlot d s t ∧ (t.slot d).valid = true ∧ (t.slot d).len = (s.slot o).len ∧
        (t.slot d).size = (s.slot o).size ∧ ∀ i, i < (s.slot o).len → t.byte d i = s.byte o i) ∧
    ((s.slot o).valid = true → d = o → exec (.clone d o) s = .next { s with busy := false, err := .ok }) ∧
    ((s.slot o).valid = false → Fails (.clone d o) s .noContainer) ∧
    encode (.clone d o) &&& 0xFFFF00FF = 0x00000004

/-- 44_query R195, R196, whole: under the invariant the values fit in R. -/
def Obligations.QueriesReadSizeAndLength : Prop :=
  ∀ d s, s.Inv →
    ((s.slot d).valid = true →
      (∃ t, exec (.getsize d) s = .next t ∧ t = { s with r := t.r, busy := false, err := .ok } ∧
        t.r.toNat = (s.slot d).size) ∧
      ∃ t, exec (.getlen d) s = .next t ∧ t = { s with r := t.r, busy := false, err := .ok } ∧
        t.r.toNat = (s.slot d).len) ∧
    ((s.slot d).valid = false → Fails (.getsize d) s .noContainer ∧ Fails (.getlen d) s .noContainer) ∧
    encode (.getsize d) &&& 0xFFFFF0FF = 0x00000040 ∧ encode (.getlen d) &&& 0xFFFFF0FF = 0x00000041

/-! ## What no command does -/

/-- 10_state R37, R38, R39, R46: the engine never writes A, B, CMD or the parameters, and nothing of the host's side. -/
def Obligations.EngineNeverWritesOperandRegisters : Prop :=
  ∀ i s t, exec i s = .next t →
    t.a = s.a ∧ t.b = s.b ∧ t.cmd = s.cmd ∧ t.params = s.params ∧ t.resetLine = s.resetLine ∧ t.lat = s.lat ∧
      t.awaiting = s.awaiting ∧ t.host = s.host ∧ t.busData = s.busData ∧ t.draws = s.draws ∧ t.epoch = s.epoch

/-- 10_state R40: no command but GET, GETB, GETSIZE and GETLEN writes R, and none that raises. -/
def Obligations.ResultRegisterWriters : Prop :=
  ∀ i s t, exec i s = .next t →
    (t.err ≠ .ok ∨ (i ≠ .get i.receiver ∧ i ≠ .getb i.receiver ∧ i ≠ .getsize i.receiver ∧ i ≠ .getlen i.receiver)) →
    t.r = s.r

/-- 10_state R42, R43: no command but GETRB writes XLEN or XBUF, and XBUF is read as before beyond the slice. -/
def Obligations.TransferBufferWriters : Prop :=
  ∀ i s t, exec i s = .next t → (t.err ≠ .ok ∨ i ≠ .getrb i.receiver) → t.xlen = s.xlen ∧ t.xbuf = s.xbuf

/-- 20_memory R82: a command changes no slot but its receiver. -/
def Obligations.OtherSlotsAreUntouched : Prop :=
  ∀ i s t, exec i s = .next t → ∀ k, k ≠ i.receiver → t.slot k = s.slot k

/-- 20_memory R67: within a lifetime neither len nor size decreases; only a constructor on the slot starts a new lifetime. -/
def Obligations.LengthsNeverShrink : Prop :=
  ∀ i s t k, exec i s = .next t → (i.isConstructor = true → k ≠ i.receiver) →
    (s.slot k).len ≤ (t.slot k).len ∧ (s.slot k).size ≤ (t.slot k).size ∧ (t.slot k).valid = (s.slot k).valid

/-- 20_memory R70: the listed commands, issued twice in a row, leave the state that issuing them once leaves. -/
def Obligations.RepeatedCommandsChangeNothing : Prop :=
  ∀ i s t, s.Inv → repeatable i = true → exec i s = .next t → exec i t = .next t

/-- 30_encoding R93: an unused register may hold any value: A and B, where a command does not read them, change nothing of what
it does. -/
def Obligations.UnusedOperandsDoNotMatter : Prop :=
  ∀ i s t x, exec i s = .next t →
    (readsA i = false → exec i { s with a := x } = .next { t with a := x }) ∧
    (readsB i = false → exec i { s with b := x } = .next { t with b := x })

/-! ## STATUS, reset and the invariant -/

/-- 10_state R44, R45: the fields of the STATUS word, its reserved bits 0, ERR one of 0 to 5. -/
def Obligations.StatusWordLayout : Prop :=
  ∀ s : State,
    s.status.toNat = 16 * s.err.bits.toNat + 2 * s.errSeen.toNat + s.busy.toNat ∧ s.err.bits.toNat ≤ 5 ∧
      (∀ i, i = 2 ∨ i = 3 ∨ 8 ≤ i → s.status.getLsbD i = false)

/-- 10_state R44, 60_exceptions R209: ERRSEEN stays 1 in every step but one that asserts the reset input. -/
def Obligations.ErrSeenIsSticky : Prop :=
  ∀ s t, step s = .next t → s.errSeen = true → t.errSeen = true ∨ ∃ rest, HostNext s .assertReset rest

/-- 10_state R49, 95_test_vectors section 9: the state after reset, for the default parameters. -/
def Obligations.ResetLeavesTheTable : Prop :=
  State.reset.AtReset ∧ State.reset.status = 0 ∧ State.reset.params.nslots = 16 ∧ State.reset.params.maxBytes = 4096 ∧
    ∀ k : SlotId, (State.reset.slot k).valid = false ∧ (State.reset.slot k).len = 0 ∧ (State.reset.slot k).size = 0

/-- 70_reset R230, R231: reset from any state, a running command abandoned; the parameters and the host's coming accesses stay. -/
def Obligations.ResetAtAnyTime : Prop :=
  ∀ s rest, HostNext s .assertReset rest →
    ∃ t, step s = .next t ∧ t.AtReset ∧ t.status = 0 ∧ t.params = s.params ∧ t.host = rest ∧ t.resetLine = true

/-- 70_reset R230, R232: while the reset input is asserted, and when it is released, every piece of state holds its value after
reset; only its release lowers the input, and changes nothing else. -/
def Obligations.ResetHoldsTheState : Prop :=
  (∀ s t, s.Inv → s.resetLine = true → step s = .next t →
    t.AtReset ∧ (t.resetLine = true ∨ ∃ rest, s.host = .releaseReset :: rest)) ∧
  ∀ s rest, HostNext s .releaseReset rest →
    ∃ t, step s = .next t ∧ t.resetLine = false ∧ t = { s with host := rest, resetLine := false, lat := t.lat } ∧
      (s.resetLine = true → t.lat = s.lat)

/-- 10_state R31, R32, R35: every step keeps the invariant. -/
def Obligations.EveryStepKeepsTheInvariant : Prop :=
  ∀ s t, s.Inv → step s = .next t → t.Inv

/-- The invariant holds after reset, for every parameter in the spec's ranges. -/
def Obligations.ResetMeetsTheInvariant : Prop :=
  ∀ p : Params, p.wf → (State.resetWith p).Inv

/-! ## The host interface -/

/-- 10_state R39, 70_reset R234 step 2: a host write of CMD stores the word and starts the command, and changes nothing else of
BACE. -/
def Obligations.CmdWriteStartsTheCommand : Prop :=
  ∀ s w rest, IdleNext s (.write 4 s.params.base w) rest →
    ∃ t, step s = .next t ∧
      t = { s with cmd := w, busy := true, host := rest, awaiting := true, lat := t.lat, draws := t.draws } ∧
      t.status.getLsbD 0 = true

/-- 10_state R37, R38, R42: the host's writes of A, B and XLEN, on an idle machine. -/
def Obligations.OperandWrites : Prop :=
  ∀ s w rest,
    (IdleNext s (.write 4 (s.params.base + 0x004) w) rest → step s = .next { s with a := w, host := rest }) ∧
    (IdleNext s (.write 4 (s.params.base + 0x008) w) rest → step s = .next { s with b := w, host := rest }) ∧
    (IdleNext s (.write 4 (s.params.base + 0x014) w) rest → step s = .next { s with xlen := w, host := rest })

/-- 10_state R40, R44, R46: host writes of R, STATUS and the parameters are ignored; that they are also while BUSY = 1 or before the
host has read BUSY = 0 is the model's deduction (log 21). -/
def Obligations.ReadOnlyRegistersIgnoreWrites : Prop :=
  ∀ s off w rest, off ∈ [0x00C, 0x010, 0x018, 0x01C] → HostNext s (.write 4 (s.params.base + off) w) rest →
    ∃ t, step s = .next t ∧ t = { s with host := rest, lat := t.lat }

/-- 20_memory R71, R70, R76: what the host reads at each register's offset while BUSY = 0, also before it has seen the end of the last
command; a read of STATUS is what lets it see the end; nothing else changes. -/
def Obligations.RegisterReads : Prop :=
  ∀ s off rest, s.host = .read 4 (s.params.base + off) :: rest → s.busy = false →
    ∀ v, (off, v) ∈ [(0x000, s.cmd), (0x004, s.a), (0x008, s.b), (0x00C, s.r), (0x010, s.status), (0x014, s.xlen),
        (0x018, BitVec.ofNat 32 s.params.nslots), (0x01C, BitVec.ofNat 32 s.params.maxBytes)] →
      step s = .next { s with busData := v, host := rest, awaiting := if off = 0x010 then false else s.awaiting }

/-- 70_reset R235, 20_memory R70: while a command runs a host read of any allowed shape changes nothing of BACE, and reads of STATUS,
CMD and the parameters are defined. That a read of A or B answers a next state then, though 20_memory R76 says the host must not
access them, is the model's choice (log 7), and so is that single bytes are allowed at reserved offsets (log 10). -/
def Obligations.DefinedReadsWhileBusy : Prop :=
  ∀ s bytes off rest, HostNext s (.read bytes (s.params.base + off)) rest → s.resetLine = false → s.busy = true →
    off < 0x20000000 → ((bytes = 4 ∧ off % 4 = 0) ∨ (bytes = 1 ∧ 0x20 ≤ off)) →
    ∃ t, step s = .next t ∧ t = { s with busData := t.busData, host := rest, lat := t.lat, draws := t.draws } ∧
      ∀ v, (bytes, off, v) ∈ [(4, 0x000, s.cmd), (4, 0x010, s.status), (4, 0x018, BitVec.ofNat 32 s.params.nslots),
          (4, 0x01C, BitVec.ofNat 32 s.params.maxBytes)] → t.busData = v

/-- 20_memory R73: a reserved offset reads 0 and ignores writes, by bytes and by aligned words. That single bytes are allowed there is
the model's choice (log 10), and that a write is ignored also while BUSY = 1 or before the host has read BUSY = 0 is the model's
deduction (log 21). -/
def Obligations.ReservedOffsets : Prop :=
  ∀ s bytes off w rest,
    (bytes = 1 ∨ (bytes = 4 ∧ off % 4 = 0)) →
    ((0x20 ≤ off ∧ off < 0x10000000) ∨ (0x10000000 + s.params.maxBytes ≤ off ∧ off < 0x20000000)) →
    (HostNext s (.read bytes (s.params.base + off)) rest →
      ∃ t, step s = .next t ∧ t = { s with busData := 0, host := rest, lat := t.lat, draws := t.draws }) ∧
    (HostNext s (.write bytes (s.params.base + off) w) rest →
      ∃ t, step s = .next t ∧ t = { s with host := rest, lat := t.lat })

/-- 20_memory R72, 93 entry 10: any other width, a misaligned word, and a byte of a register is a fault. -/
def Obligations.WrongShapesFault : Prop :=
  ∀ s bytes off w rest, off < 0x20000000 →
    ((bytes ≠ 1 ∧ bytes ≠ 4) ∨ (bytes = 4 ∧ off % 4 ≠ 0) ∨ (bytes = 1 ∧ off < 0x20)) →
    (HostNext s (.read bytes (s.params.base + off)) rest → step s = .fault .hostAccessShape) ∧
    (HostNext s (.write bytes (s.params.base + off) w) rest → step s = .fault .hostAccessShape)

/-- 70_reset R235, 93 entries 8 and 11: a write of CMD, A, B, XLEN or XBUF while BUSY = 1 is a fault; that it is one also after BUSY has
fallen, until the host has read BUSY = 0, is the model's deduction (log 6). -/
def Obligations.WritesWhileBusyFault : Prop :=
  ∀ s bytes off w rest, HostNext s (.write bytes (s.params.base + off) w) rest → s.resetLine = false →
    (s.busy = true ∨ s.awaiting = true) → s.params.maxBytes ≤ 2 ^ 28 →
    ((bytes = 4 ∧ off ∈ [0x000, 0x004, 0x008, 0x014]) ∨
      ((bytes = 1 ∨ (bytes = 4 ∧ off % 4 = 0)) ∧ 0x10000000 ≤ off ∧ off < 0x10000000 + s.params.maxBytes)) →
    step s = .fault .hostWriteWhileBusy

/-- 20_memory R72, R70: a word write of XBUF stores its bytes little-endian and a word read returns them; a byte write stores the low
byte at its index alone and a byte read returns it zero-extended; reads change nothing, also before the host has seen the end of the
last command. -/
def Obligations.XbufWordsAreLittleEndian : Prop :=
  ∀ s w rest, s.params.maxBytes ≤ 2 ^ 28 →
    (∀ j, 4 * j + 3 < s.params.maxBytes →
      IdleNext s (.write 4 (s.params.base + 0x10000000 + 4 * j) w)
        (.read 4 (s.params.base + 0x10000000 + 4 * j) :: rest) →
      ∃ t u, step s = .next t ∧ step t = .next u ∧ u.busData = w ∧ u.host = rest ∧
        t = { s with xbuf := t.xbuf, host := t.host } ∧
        ∀ i, t.xread i = if 4 * j ≤ i ∧ i < 4 * j + 4 then w.extractLsb' (8 * (i - 4 * j)) 8 else s.xread i) ∧
    (∀ i, i < s.params.maxBytes → IdleNext s (.write 1 (s.params.base + 0x10000000 + i) w) rest →
      ∃ t, step s = .next t ∧ t = { s with xbuf := t.xbuf, host := rest } ∧
        ∀ q, t.xread q = if q = i then w.extractLsb' 0 8 else s.xread q) ∧
    (∀ j, 4 * j + 3 < s.params.maxBytes → s.host = .read 4 (s.params.base + 0x10000000 + 4 * j) :: rest → s.busy = false →
      ∃ t, step s = .next t ∧ t = { s with busData := t.busData, host := rest } ∧
        ∀ i, i < 4 → t.busData.extractLsb' (8 * i) 8 = s.xread (4 * j + i)) ∧
    ∀ i, i < s.params.maxBytes → s.host = .read 1 (s.params.base + 0x10000000 + i) :: rest → s.busy = false →
      ∃ t, step s = .next t ∧ t = { s with busData := t.busData, host := rest } ∧ t.busData.toNat = (s.xread i).toNat

/-- 70_reset R234 step 4, 20_memory R76: the host's wait ends exactly when BUSY = 0, and the host has then seen the end. -/
def Obligations.WaitEndsWhenIdle : Prop :=
  ∀ s rest, HostNext s .waitIdle rest → s.resetLine = false →
    ∃ t, step s = .next t ∧ t.busData = s.status ∧
      (s.busy = false → t = { s with host := rest, busData := s.status, awaiting := false }) ∧
      (s.busy = true → t.host = s.host ∧ t.busy = true ∧ t.awaiting = s.awaiting)

/-- 60_exceptions R217, 70_reset R232: between commands, with no access coming, BACE is idle and keeps all state. -/
def Obligations.IdleKeepsAllState : Prop :=
  ∀ s, s.busy = false → s.host = [] → step s = .next s

/-- 30_encoding R99, 70_reset R234, R238: a command line on an idle machine, its encoding written to CMD and then the wait, ends with the
command's effect done and the host past the line, whatever the latency; and that state is the end state of the run if no write of CMD
is left after the line. -/
def Obligations.CommandLineRunsTheCommand : Prop :=
  ∀ (s : State) i rest, Instr.wellFormed s.params.nslots i = true → s.resetLine = false → s.busy = false → s.awaiting = false →
    s.host = Line.acts s.params (.cmd i) ++ rest →
    ∃ (n : Nat) (t u : State), Host.Core.run core n s = .next t ∧ exec i { s with cmd := encode i } = .next u ∧
      t = { u with host := rest, busData := u.status, lat := t.lat, draws := t.draws } ∧
      (rest.all (fun act => !act.issues s.params) = true → EndsRun s t)

/-! ## The host-side text forms -/

/-- 43_codec R177, R178: the parser accepts exactly the strings of '0', '1' and the six whitespace characters, with one bit for
each digit, the rightmost digit being bit 0; on any other character it fails and `ldbin` issues no line. -/
def Obligations.ParserReadsDigits : Prop :=
  ∀ text : List Char,
    ((∀ c ∈ text, c = '0' ∨ c = '1' ∨ isSpace c = true) →
      ∃ im, parse text = .ok im ∧ im.size = (digitsOf text).length ∧ im.bytes.length = (im.size + 7) / 8 ∧
        ∀ j, j < 8 * im.bytes.length →
          ((im.bytes.getD (j / 8) 0).getLsbD (j % 8) = true ↔ (digitsOf text).reverse[j]? = some '1')) ∧
    ((∃ c ∈ text, c ≠ '0' ∧ c ≠ '1' ∧ isSpace c = false) →
      parse text = .error .invalidArgument ∧ ∀ d, (Pseudo.ldbin d text).lines = .error .invalidArgument)

/-- 43_codec R180 (a): rendering what was parsed regroups the digits. -/
def Obligations.RenderAfterParseRegroups : Prop :=
  ∀ text im, parse text = .ok im → render im.bytes = [' '].intercalate (regroup (digitsOf text))

/-- 43_codec R180 (b), R179: parsing a rendering gives the bytes back, with size 8 len; and for a valid slot those are its backing bytes,
as the host reads them: GETLEN, then, if len > 0, GETRB with A = 0 and B = len. The read changes no slot, and of the registers those
that the two commands and the host's writes change. -/
def Obligations.ParseAfterRenderRestores : Prop :=
  (∀ bytes : List Byte, parse (render bytes) = .ok { size := 8 * bytes.length, bytes := bytes }) ∧
  ∀ (s : State) k, s.Inv → (s.slot k).valid = true → s.resetLine = false → s.busy = false → s.awaiting = false →
    ∃ (m n : Nat) (t u : State),
      Host.Core.run core m (s.withLengthRead k) = .next t ∧ t.host = [] ∧ t.busData.toNat = (s.slot k).len ∧
      Host.Core.run core n (t.withSliceRead k) = .next u ∧ u.host = [] ∧ u.busy = false ∧ u.awaiting = false ∧
      u.slots = s.slots ∧ u.params = s.params ∧ u.errSeen = s.errSeen ∧ u.err = .ok ∧ u.r.toNat = (s.slot k).len ∧
      u.readBack = s.backing k ∧ render u.readBack = s.render k ∧
      parse (render u.readBack) = .ok { size := 8 * (s.slot k).len, bytes := s.backing k } ∧
      ((s.slot k).len = 0 → u.a = s.a ∧ u.b = s.b ∧ u.xlen = s.xlen ∧ u.xbuf = s.xbuf) ∧
      (0 < (s.slot k).len → u.a = 0 ∧ u.b.toNat = (s.slot k).len ∧ u.xlen.toNat = (s.slot k).len ∧
        ∀ i, (s.slot k).len ≤ i → u.xread i = s.xread i)
end

