-- ==== Sys2Proof/Laws/State.lean ====
section
/-! SUPPORT. One lemma per field per update of State, so that no later proof unfolds a record update. -/

namespace Sys2Proof.Machine

/-! ## setSlot -/

@[simp] theorem setSlot_params (s : State) (k : SlotId) (c : Slot) : (s.setSlot k c).params = s.params := rfl
@[simp] theorem setSlot_a (s : State) (k : SlotId) (c : Slot) : (s.setSlot k c).a = s.a := rfl
@[simp] theorem setSlot_b (s : State) (k : SlotId) (c : Slot) : (s.setSlot k c).b = s.b := rfl
@[simp] theorem setSlot_cmd (s : State) (k : SlotId) (c : Slot) : (s.setSlot k c).cmd = s.cmd := rfl
@[simp] theorem setSlot_r (s : State) (k : SlotId) (c : Slot) : (s.setSlot k c).r = s.r := rfl
@[simp] theorem setSlot_xlen (s : State) (k : SlotId) (c : Slot) : (s.setSlot k c).xlen = s.xlen := rfl
@[simp] theorem setSlot_xbuf (s : State) (k : SlotId) (c : Slot) : (s.setSlot k c).xbuf = s.xbuf := rfl
@[simp] theorem setSlot_busy (s : State) (k : SlotId) (c : Slot) : (s.setSlot k c).busy = s.busy := rfl
@[simp] theorem setSlot_errSeen (s : State) (k : SlotId) (c : Slot) : (s.setSlot k c).errSeen = s.errSeen := rfl
@[simp] theorem setSlot_err (s : State) (k : SlotId) (c : Slot) : (s.setSlot k c).err = s.err := rfl
@[simp] theorem setSlot_resetLine (s : State) (k : SlotId) (c : Slot) : (s.setSlot k c).resetLine = s.resetLine := rfl
@[simp] theorem setSlot_lat (s : State) (k : SlotId) (c : Slot) : (s.setSlot k c).lat = s.lat := rfl
@[simp] theorem setSlot_awaiting (s : State) (k : SlotId) (c : Slot) : (s.setSlot k c).awaiting = s.awaiting := rfl
@[simp] theorem setSlot_host (s : State) (k : SlotId) (c : Slot) : (s.setSlot k c).host = s.host := rfl
@[simp] theorem setSlot_busData (s : State) (k : SlotId) (c : Slot) : (s.setSlot k c).busData = s.busData := rfl
@[simp] theorem setSlot_draws (s : State) (k : SlotId) (c : Slot) : (s.setSlot k c).draws = s.draws := rfl
@[simp] theorem setSlot_epoch (s : State) (k : SlotId) (c : Slot) : (s.setSlot k c).epoch = s.epoch := rfl

/-! ## writeByte -/

@[simp] theorem writeByte_params (s : State) (k : SlotId) (i : Nat) (b : Byte) : (s.writeByte k i b).params = s.params := rfl
@[simp] theorem writeByte_a (s : State) (k : SlotId) (i : Nat) (b : Byte) : (s.writeByte k i b).a = s.a := rfl
@[simp] theorem writeByte_b (s : State) (k : SlotId) (i : Nat) (b : Byte) : (s.writeByte k i b).b = s.b := rfl
@[simp] theorem writeByte_cmd (s : State) (k : SlotId) (i : Nat) (b : Byte) : (s.writeByte k i b).cmd = s.cmd := rfl
@[simp] theorem writeByte_r (s : State) (k : SlotId) (i : Nat) (b : Byte) : (s.writeByte k i b).r = s.r := rfl
@[simp] theorem writeByte_xlen (s : State) (k : SlotId) (i : Nat) (b : Byte) : (s.writeByte k i b).xlen = s.xlen := rfl
@[simp] theorem writeByte_xbuf (s : State) (k : SlotId) (i : Nat) (b : Byte) : (s.writeByte k i b).xbuf = s.xbuf := rfl
@[simp] theorem writeByte_busy (s : State) (k : SlotId) (i : Nat) (b : Byte) : (s.writeByte k i b).busy = s.busy := rfl
@[simp] theorem writeByte_errSeen (s : State) (k : SlotId) (i : Nat) (b : Byte) : (s.writeByte k i b).errSeen = s.errSeen := rfl
@[simp] theorem writeByte_err (s : State) (k : SlotId) (i : Nat) (b : Byte) : (s.writeByte k i b).err = s.err := rfl
@[simp] theorem writeByte_resetLine (s : State) (k : SlotId) (i : Nat) (b : Byte) : (s.writeByte k i b).resetLine = s.resetLine := rfl
@[simp] theorem writeByte_lat (s : State) (k : SlotId) (i : Nat) (b : Byte) : (s.writeByte k i b).lat = s.lat := rfl
@[simp] theorem writeByte_awaiting (s : State) (k : SlotId) (i : Nat) (b : Byte) : (s.writeByte k i b).awaiting = s.awaiting := rfl
@[simp] theorem writeByte_host (s : State) (k : SlotId) (i : Nat) (b : Byte) : (s.writeByte k i b).host = s.host := rfl
@[simp] theorem writeByte_busData (s : State) (k : SlotId) (i : Nat) (b : Byte) : (s.writeByte k i b).busData = s.busData := rfl
@[simp] theorem writeByte_draws (s : State) (k : SlotId) (i : Nat) (b : Byte) : (s.writeByte k i b).draws = s.draws := rfl
@[simp] theorem writeByte_epoch (s : State) (k : SlotId) (i : Nat) (b : Byte) : (s.writeByte k i b).epoch = s.epoch := rfl

/-! ## fillBytes -/

@[simp] theorem fillBytes_params (s : State) (k : SlotId) (f : Nat → Byte) (i n : Nat) : (s.fillBytes k f i n).params = s.params := rfl
@[simp] theorem fillBytes_a (s : State) (k : SlotId) (f : Nat → Byte) (i n : Nat) : (s.fillBytes k f i n).a = s.a := rfl
@[simp] theorem fillBytes_b (s : State) (k : SlotId) (f : Nat → Byte) (i n : Nat) : (s.fillBytes k f i n).b = s.b := rfl
@[simp] theorem fillBytes_cmd (s : State) (k : SlotId) (f : Nat → Byte) (i n : Nat) : (s.fillBytes k f i n).cmd = s.cmd := rfl
@[simp] theorem fillBytes_r (s : State) (k : SlotId) (f : Nat → Byte) (i n : Nat) : (s.fillBytes k f i n).r = s.r := rfl
@[simp] theorem fillBytes_xlen (s : State) (k : SlotId) (f : Nat → Byte) (i n : Nat) : (s.fillBytes k f i n).xlen = s.xlen := rfl
@[simp] theorem fillBytes_xbuf (s : State) (k : SlotId) (f : Nat → Byte) (i n : Nat) : (s.fillBytes k f i n).xbuf = s.xbuf := rfl
@[simp] theorem fillBytes_busy (s : State) (k : SlotId) (f : Nat → Byte) (i n : Nat) : (s.fillBytes k f i n).busy = s.busy := rfl
@[simp] theorem fillBytes_errSeen (s : State) (k : SlotId) (f : Nat → Byte) (i n : Nat) : (s.fillBytes k f i n).errSeen = s.errSeen := rfl
@[simp] theorem fillBytes_err (s : State) (k : SlotId) (f : Nat → Byte) (i n : Nat) : (s.fillBytes k f i n).err = s.err := rfl
@[simp] theorem fillBytes_resetLine (s : State) (k : SlotId) (f : Nat → Byte) (i n : Nat) : (s.fillBytes k f i n).resetLine = s.resetLine := rfl
@[simp] theorem fillBytes_lat (s : State) (k : SlotId) (f : Nat → Byte) (i n : Nat) : (s.fillBytes k f i n).lat = s.lat := rfl
@[simp] theorem fillBytes_awaiting (s : State) (k : SlotId) (f : Nat → Byte) (i n : Nat) : (s.fillBytes k f i n).awaiting = s.awaiting := rfl
@[simp] theorem fillBytes_host (s : State) (k : SlotId) (f : Nat → Byte) (i n : Nat) : (s.fillBytes k f i n).host = s.host := rfl
@[simp] theorem fillBytes_busData (s : State) (k : SlotId) (f : Nat → Byte) (i n : Nat) : (s.fillBytes k f i n).busData = s.busData := rfl
@[simp] theorem fillBytes_draws (s : State) (k : SlotId) (f : Nat → Byte) (i n : Nat) : (s.fillBytes k f i n).draws = s.draws := rfl
@[simp] theorem fillBytes_epoch (s : State) (k : SlotId) (f : Nat → Byte) (i n : Nat) : (s.fillBytes k f i n).epoch = s.epoch := rfl

/-! ## maskByte -/

@[simp] theorem maskByte_params (s : State) (k : SlotId) (i : Nat) (m : Byte) (v : Bool) : (s.maskByte k i m v).params = s.params := rfl
@[simp] theorem maskByte_a (s : State) (k : SlotId) (i : Nat) (m : Byte) (v : Bool) : (s.maskByte k i m v).a = s.a := rfl
@[simp] theorem maskByte_b (s : State) (k : SlotId) (i : Nat) (m : Byte) (v : Bool) : (s.maskByte k i m v).b = s.b := rfl
@[simp] theorem maskByte_cmd (s : State) (k : SlotId) (i : Nat) (m : Byte) (v : Bool) : (s.maskByte k i m v).cmd = s.cmd := rfl
@[simp] theorem maskByte_r (s : State) (k : SlotId) (i : Nat) (m : Byte) (v : Bool) : (s.maskByte k i m v).r = s.r := rfl
@[simp] theorem maskByte_xlen (s : State) (k : SlotId) (i : Nat) (m : Byte) (v : Bool) : (s.maskByte k i m v).xlen = s.xlen := rfl
@[simp] theorem maskByte_xbuf (s : State) (k : SlotId) (i : Nat) (m : Byte) (v : Bool) : (s.maskByte k i m v).xbuf = s.xbuf := rfl
@[simp] theorem maskByte_busy (s : State) (k : SlotId) (i : Nat) (m : Byte) (v : Bool) : (s.maskByte k i m v).busy = s.busy := rfl
@[simp] theorem maskByte_errSeen (s : State) (k : SlotId) (i : Nat) (m : Byte) (v : Bool) : (s.maskByte k i m v).errSeen = s.errSeen := rfl
@[simp] theorem maskByte_err (s : State) (k : SlotId) (i : Nat) (m : Byte) (v : Bool) : (s.maskByte k i m v).err = s.err := rfl
@[simp] theorem maskByte_resetLine (s : State) (k : SlotId) (i : Nat) (m : Byte) (v : Bool) : (s.maskByte k i m v).resetLine = s.resetLine := rfl
@[simp] theorem maskByte_lat (s : State) (k : SlotId) (i : Nat) (m : Byte) (v : Bool) : (s.maskByte k i m v).lat = s.lat := rfl
@[simp] theorem maskByte_awaiting (s : State) (k : SlotId) (i : Nat) (m : Byte) (v : Bool) : (s.maskByte k i m v).awaiting = s.awaiting := rfl
@[simp] theorem maskByte_host (s : State) (k : SlotId) (i : Nat) (m : Byte) (v : Bool) : (s.maskByte k i m v).host = s.host := rfl
@[simp] theorem maskByte_busData (s : State) (k : SlotId) (i : Nat) (m : Byte) (v : Bool) : (s.maskByte k i m v).busData = s.busData := rfl
@[simp] theorem maskByte_draws (s : State) (k : SlotId) (i : Nat) (m : Byte) (v : Bool) : (s.maskByte k i m v).draws = s.draws := rfl
@[simp] theorem maskByte_epoch (s : State) (k : SlotId) (i : Nat) (m : Byte) (v : Bool) : (s.maskByte k i m v).epoch = s.epoch := rfl

/-! ## writeBit -/

@[simp] theorem writeBit_params (s : State) (k : SlotId) (p : Nat) (v : Bool) : (s.writeBit k p v).params = s.params := rfl
@[simp] theorem writeBit_a (s : State) (k : SlotId) (p : Nat) (v : Bool) : (s.writeBit k p v).a = s.a := rfl
@[simp] theorem writeBit_b (s : State) (k : SlotId) (p : Nat) (v : Bool) : (s.writeBit k p v).b = s.b := rfl
@[simp] theorem writeBit_cmd (s : State) (k : SlotId) (p : Nat) (v : Bool) : (s.writeBit k p v).cmd = s.cmd := rfl
@[simp] theorem writeBit_r (s : State) (k : SlotId) (p : Nat) (v : Bool) : (s.writeBit k p v).r = s.r := rfl
@[simp] theorem writeBit_xlen (s : State) (k : SlotId) (p : Nat) (v : Bool) : (s.writeBit k p v).xlen = s.xlen := rfl
@[simp] theorem writeBit_xbuf (s : State) (k : SlotId) (p : Nat) (v : Bool) : (s.writeBit k p v).xbuf = s.xbuf := rfl
@[simp] theorem writeBit_busy (s : State) (k : SlotId) (p : Nat) (v : Bool) : (s.writeBit k p v).busy = s.busy := rfl
@[simp] theorem writeBit_errSeen (s : State) (k : SlotId) (p : Nat) (v : Bool) : (s.writeBit k p v).errSeen = s.errSeen := rfl
@[simp] theorem writeBit_err (s : State) (k : SlotId) (p : Nat) (v : Bool) : (s.writeBit k p v).err = s.err := rfl
@[simp] theorem writeBit_resetLine (s : State) (k : SlotId) (p : Nat) (v : Bool) : (s.writeBit k p v).resetLine = s.resetLine := rfl
@[simp] theorem writeBit_lat (s : State) (k : SlotId) (p : Nat) (v : Bool) : (s.writeBit k p v).lat = s.lat := rfl
@[simp] theorem writeBit_awaiting (s : State) (k : SlotId) (p : Nat) (v : Bool) : (s.writeBit k p v).awaiting = s.awaiting := rfl
@[simp] theorem writeBit_host (s : State) (k : SlotId) (p : Nat) (v : Bool) : (s.writeBit k p v).host = s.host := rfl
@[simp] theorem writeBit_busData (s : State) (k : SlotId) (p : Nat) (v : Bool) : (s.writeBit k p v).busData = s.busData := rfl
@[simp] theorem writeBit_draws (s : State) (k : SlotId) (p : Nat) (v : Bool) : (s.writeBit k p v).draws = s.draws := rfl
@[simp] theorem writeBit_epoch (s : State) (k : SlotId) (p : Nat) (v : Bool) : (s.writeBit k p v).epoch = s.epoch := rfl

/-! ## grow -/

@[simp] theorem grow_params (s : State) (k : SlotId) (n : Nat) : (s.grow k n).params = s.params := by unfold State.grow; dsimp only; split <;> rfl
@[simp] theorem grow_a (s : State) (k : SlotId) (n : Nat) : (s.grow k n).a = s.a := by unfold State.grow; dsimp only; split <;> rfl
@[simp] theorem grow_b (s : State) (k : SlotId) (n : Nat) : (s.grow k n).b = s.b := by unfold State.grow; dsimp only; split <;> rfl
@[simp] theorem grow_cmd (s : State) (k : SlotId) (n : Nat) : (s.grow k n).cmd = s.cmd := by unfold State.grow; dsimp only; split <;> rfl
@[simp] theorem grow_r (s : State) (k : SlotId) (n : Nat) : (s.grow k n).r = s.r := by unfold State.grow; dsimp only; split <;> rfl
@[simp] theorem grow_xlen (s : State) (k : SlotId) (n : Nat) : (s.grow k n).xlen = s.xlen := by unfold State.grow; dsimp only; split <;> rfl
@[simp] theorem grow_xbuf (s : State) (k : SlotId) (n : Nat) : (s.grow k n).xbuf = s.xbuf := by unfold State.grow; dsimp only; split <;> rfl
@[simp] theorem grow_busy (s : State) (k : SlotId) (n : Nat) : (s.grow k n).busy = s.busy := by unfold State.grow; dsimp only; split <;> rfl
@[simp] theorem grow_errSeen (s : State) (k : SlotId) (n : Nat) : (s.grow k n).errSeen = s.errSeen := by unfold State.grow; dsimp only; split <;> rfl
@[simp] theorem grow_err (s : State) (k : SlotId) (n : Nat) : (s.grow k n).err = s.err := by unfold State.grow; dsimp only; split <;> rfl
@[simp] theorem grow_resetLine (s : State) (k : SlotId) (n : Nat) : (s.grow k n).resetLine = s.resetLine := by unfold State.grow; dsimp only; split <;> rfl
@[simp] theorem grow_lat (s : State) (k : SlotId) (n : Nat) : (s.grow k n).lat = s.lat := by unfold State.grow; dsimp only; split <;> rfl
@[simp] theorem grow_awaiting (s : State) (k : SlotId) (n : Nat) : (s.grow k n).awaiting = s.awaiting := by unfold State.grow; dsimp only; split <;> rfl
@[simp] theorem grow_host (s : State) (k : SlotId) (n : Nat) : (s.grow k n).host = s.host := by unfold State.grow; dsimp only; split <;> rfl
@[simp] theorem grow_busData (s : State) (k : SlotId) (n : Nat) : (s.grow k n).busData = s.busData := by unfold State.grow; dsimp only; split <;> rfl
@[simp] theorem grow_draws (s : State) (k : SlotId) (n : Nat) : (s.grow k n).draws = s.draws := by unfold State.grow; dsimp only; split <;> rfl
@[simp] theorem grow_epoch (s : State) (k : SlotId) (n : Nat) : (s.grow k n).epoch = s.epoch := by unfold State.grow; dsimp only; split <;> rfl

/-! ## raiseSize -/

@[simp] theorem raiseSize_params (s : State) (k : SlotId) (v : Nat) : (s.raiseSize k v).params = s.params := rfl
@[simp] theorem raiseSize_a (s : State) (k : SlotId) (v : Nat) : (s.raiseSize k v).a = s.a := rfl
@[simp] theorem raiseSize_b (s : State) (k : SlotId) (v : Nat) : (s.raiseSize k v).b = s.b := rfl
@[simp] theorem raiseSize_cmd (s : State) (k : SlotId) (v : Nat) : (s.raiseSize k v).cmd = s.cmd := rfl
@[simp] theorem raiseSize_r (s : State) (k : SlotId) (v : Nat) : (s.raiseSize k v).r = s.r := rfl
@[simp] theorem raiseSize_xlen (s : State) (k : SlotId) (v : Nat) : (s.raiseSize k v).xlen = s.xlen := rfl
@[simp] theorem raiseSize_xbuf (s : State) (k : SlotId) (v : Nat) : (s.raiseSize k v).xbuf = s.xbuf := rfl
@[simp] theorem raiseSize_busy (s : State) (k : SlotId) (v : Nat) : (s.raiseSize k v).busy = s.busy := rfl
@[simp] theorem raiseSize_errSeen (s : State) (k : SlotId) (v : Nat) : (s.raiseSize k v).errSeen = s.errSeen := rfl
@[simp] theorem raiseSize_err (s : State) (k : SlotId) (v : Nat) : (s.raiseSize k v).err = s.err := rfl
@[simp] theorem raiseSize_resetLine (s : State) (k : SlotId) (v : Nat) : (s.raiseSize k v).resetLine = s.resetLine := rfl
@[simp] theorem raiseSize_lat (s : State) (k : SlotId) (v : Nat) : (s.raiseSize k v).lat = s.lat := rfl
@[simp] theorem raiseSize_awaiting (s : State) (k : SlotId) (v : Nat) : (s.raiseSize k v).awaiting = s.awaiting := rfl
@[simp] theorem raiseSize_host (s : State) (k : SlotId) (v : Nat) : (s.raiseSize k v).host = s.host := rfl
@[simp] theorem raiseSize_busData (s : State) (k : SlotId) (v : Nat) : (s.raiseSize k v).busData = s.busData := rfl
@[simp] theorem raiseSize_draws (s : State) (k : SlotId) (v : Nat) : (s.raiseSize k v).draws = s.draws := rfl
@[simp] theorem raiseSize_epoch (s : State) (k : SlotId) (v : Nat) : (s.raiseSize k v).epoch = s.epoch := rfl

/-! ## construct -/

@[simp] theorem construct_params (s : State) (k : SlotId) (len size : Nat) (f : Nat → Byte) : (s.construct k len size f).params = s.params := rfl
@[simp] theorem construct_a (s : State) (k : SlotId) (len size : Nat) (f : Nat → Byte) : (s.construct k len size f).a = s.a := rfl
@[simp] theorem construct_b (s : State) (k : SlotId) (len size : Nat) (f : Nat → Byte) : (s.construct k len size f).b = s.b := rfl
@[simp] theorem construct_cmd (s : State) (k : SlotId) (len size : Nat) (f : Nat → Byte) : (s.construct k len size f).cmd = s.cmd := rfl
@[simp] theorem construct_r (s : State) (k : SlotId) (len size : Nat) (f : Nat → Byte) : (s.construct k len size f).r = s.r := rfl
@[simp] theorem construct_xlen (s : State) (k : SlotId) (len size : Nat) (f : Nat → Byte) : (s.construct k len size f).xlen = s.xlen := rfl
@[simp] theorem construct_xbuf (s : State) (k : SlotId) (len size : Nat) (f : Nat → Byte) : (s.construct k len size f).xbuf = s.xbuf := rfl
@[simp] theorem construct_busy (s : State) (k : SlotId) (len size : Nat) (f : Nat → Byte) : (s.construct k len size f).busy = s.busy := rfl
@[simp] theorem construct_errSeen (s : State) (k : SlotId) (len size : Nat) (f : Nat → Byte) : (s.construct k len size f).errSeen = s.errSeen := rfl
@[simp] theorem construct_err (s : State) (k : SlotId) (len size : Nat) (f : Nat → Byte) : (s.construct k len size f).err = s.err := rfl
@[simp] theorem construct_resetLine (s : State) (k : SlotId) (len size : Nat) (f : Nat → Byte) : (s.construct k len size f).resetLine = s.resetLine := rfl
@[simp] theorem construct_lat (s : State) (k : SlotId) (len size : Nat) (f : Nat → Byte) : (s.construct k len size f).lat = s.lat := rfl
@[simp] theorem construct_awaiting (s : State) (k : SlotId) (len size : Nat) (f : Nat → Byte) : (s.construct k len size f).awaiting = s.awaiting := rfl
@[simp] theorem construct_host (s : State) (k : SlotId) (len size : Nat) (f : Nat → Byte) : (s.construct k len size f).host = s.host := rfl
@[simp] theorem construct_busData (s : State) (k : SlotId) (len size : Nat) (f : Nat → Byte) : (s.construct k len size f).busData = s.busData := rfl
@[simp] theorem construct_draws (s : State) (k : SlotId) (len size : Nat) (f : Nat → Byte) : (s.construct k len size f).draws = s.draws := rfl
@[simp] theorem construct_epoch (s : State) (k : SlotId) (len size : Nat) (f : Nat → Byte) : (s.construct k len size f).epoch = s.epoch := rfl

/-! ## xwrite -/

@[simp] theorem xwrite_params (s : State) (i : Nat) (b : Byte) : (s.xwrite i b).params = s.params := rfl
@[simp] theorem xwrite_slots (s : State) (i : Nat) (b : Byte) : (s.xwrite i b).slots = s.slots := rfl
@[simp] theorem xwrite_a (s : State) (i : Nat) (b : Byte) : (s.xwrite i b).a = s.a := rfl
@[simp] theorem xwrite_b (s : State) (i : Nat) (b : Byte) : (s.xwrite i b).b = s.b := rfl
@[simp] theorem xwrite_cmd (s : State) (i : Nat) (b : Byte) : (s.xwrite i b).cmd = s.cmd := rfl
@[simp] theorem xwrite_r (s : State) (i : Nat) (b : Byte) : (s.xwrite i b).r = s.r := rfl
@[simp] theorem xwrite_xlen (s : State) (i : Nat) (b : Byte) : (s.xwrite i b).xlen = s.xlen := rfl
@[simp] theorem xwrite_xbuf (s : State) (i : Nat) (b : Byte) : (s.xwrite i b).xbuf = s.xbuf.write i b := rfl
@[simp] theorem xwrite_busy (s : State) (i : Nat) (b : Byte) : (s.xwrite i b).busy = s.busy := rfl
@[simp] theorem xwrite_errSeen (s : State) (i : Nat) (b : Byte) : (s.xwrite i b).errSeen = s.errSeen := rfl
@[simp] theorem xwrite_err (s : State) (i : Nat) (b : Byte) : (s.xwrite i b).err = s.err := rfl
@[simp] theorem xwrite_resetLine (s : State) (i : Nat) (b : Byte) : (s.xwrite i b).resetLine = s.resetLine := rfl
@[simp] theorem xwrite_lat (s : State) (i : Nat) (b : Byte) : (s.xwrite i b).lat = s.lat := rfl
@[simp] theorem xwrite_awaiting (s : State) (i : Nat) (b : Byte) : (s.xwrite i b).awaiting = s.awaiting := rfl
@[simp] theorem xwrite_host (s : State) (i : Nat) (b : Byte) : (s.xwrite i b).host = s.host := rfl
@[simp] theorem xwrite_busData (s : State) (i : Nat) (b : Byte) : (s.xwrite i b).busData = s.busData := rfl
@[simp] theorem xwrite_draws (s : State) (i : Nat) (b : Byte) : (s.xwrite i b).draws = s.draws := rfl
@[simp] theorem xwrite_epoch (s : State) (i : Nat) (b : Byte) : (s.xwrite i b).epoch = s.epoch := rfl

/-! ## complete -/

@[simp] theorem complete_params (c : ErrCode) (s : State) : (s.complete c).params = s.params := rfl
@[simp] theorem complete_slots (c : ErrCode) (s : State) : (s.complete c).slots = s.slots := rfl
@[simp] theorem complete_a (c : ErrCode) (s : State) : (s.complete c).a = s.a := rfl
@[simp] theorem complete_b (c : ErrCode) (s : State) : (s.complete c).b = s.b := rfl
@[simp] theorem complete_cmd (c : ErrCode) (s : State) : (s.complete c).cmd = s.cmd := rfl
@[simp] theorem complete_r (c : ErrCode) (s : State) : (s.complete c).r = s.r := rfl
@[simp] theorem complete_xlen (c : ErrCode) (s : State) : (s.complete c).xlen = s.xlen := rfl
@[simp] theorem complete_xbuf (c : ErrCode) (s : State) : (s.complete c).xbuf = s.xbuf := rfl
@[simp] theorem complete_busy (c : ErrCode) (s : State) : (s.complete c).busy = false := rfl
@[simp] theorem complete_errSeen (c : ErrCode) (s : State) : (s.complete c).errSeen = (s.errSeen || decide (c ≠ .ok)) := rfl
@[simp] theorem complete_err (c : ErrCode) (s : State) : (s.complete c).err = c := rfl
@[simp] theorem complete_resetLine (c : ErrCode) (s : State) : (s.complete c).resetLine = s.resetLine := rfl
@[simp] theorem complete_lat (c : ErrCode) (s : State) : (s.complete c).lat = s.lat := rfl
@[simp] theorem complete_awaiting (c : ErrCode) (s : State) : (s.complete c).awaiting = s.awaiting := rfl
@[simp] theorem complete_host (c : ErrCode) (s : State) : (s.complete c).host = s.host := rfl
@[simp] theorem complete_busData (c : ErrCode) (s : State) : (s.complete c).busData = s.busData := rfl
@[simp] theorem complete_draws (c : ErrCode) (s : State) : (s.complete c).draws = s.draws := rfl
@[simp] theorem complete_epoch (c : ErrCode) (s : State) : (s.complete c).epoch = s.epoch := rfl

/-! ## hostRead -/

@[simp] theorem hostRead_params (s : State) (bytes off : Nat) : (s.hostRead bytes off).params = s.params := rfl
@[simp] theorem hostRead_slots (s : State) (bytes off : Nat) : (s.hostRead bytes off).slots = s.slots := rfl
@[simp] theorem hostRead_a (s : State) (bytes off : Nat) : (s.hostRead bytes off).a = s.a := rfl
@[simp] theorem hostRead_b (s : State) (bytes off : Nat) : (s.hostRead bytes off).b = s.b := rfl
@[simp] theorem hostRead_cmd (s : State) (bytes off : Nat) : (s.hostRead bytes off).cmd = s.cmd := rfl
@[simp] theorem hostRead_r (s : State) (bytes off : Nat) : (s.hostRead bytes off).r = s.r := rfl
@[simp] theorem hostRead_xlen (s : State) (bytes off : Nat) : (s.hostRead bytes off).xlen = s.xlen := rfl
@[simp] theorem hostRead_xbuf (s : State) (bytes off : Nat) : (s.hostRead bytes off).xbuf = s.xbuf := rfl
@[simp] theorem hostRead_busy (s : State) (bytes off : Nat) : (s.hostRead bytes off).busy = s.busy := rfl
@[simp] theorem hostRead_errSeen (s : State) (bytes off : Nat) : (s.hostRead bytes off).errSeen = s.errSeen := rfl
@[simp] theorem hostRead_err (s : State) (bytes off : Nat) : (s.hostRead bytes off).err = s.err := rfl
@[simp] theorem hostRead_resetLine (s : State) (bytes off : Nat) : (s.hostRead bytes off).resetLine = s.resetLine := rfl
@[simp] theorem hostRead_lat (s : State) (bytes off : Nat) : (s.hostRead bytes off).lat = s.lat := rfl
@[simp] theorem hostRead_host (s : State) (bytes off : Nat) : (s.hostRead bytes off).host = s.host := rfl
@[simp] theorem hostRead_busData (s : State) (bytes off : Nat) : (s.hostRead bytes off).busData = s.readValue bytes off := rfl
@[simp] theorem hostRead_epoch (s : State) (bytes off : Nat) : (s.hostRead bytes off).epoch = s.epoch := rfl

/-! ## issue -/

@[simp] theorem issue_params (s : State) (w : Word) : (s.issue w).params = s.params := rfl
@[simp] theorem issue_slots (s : State) (w : Word) : (s.issue w).slots = s.slots := rfl
@[simp] theorem issue_a (s : State) (w : Word) : (s.issue w).a = s.a := rfl
@[simp] theorem issue_b (s : State) (w : Word) : (s.issue w).b = s.b := rfl
@[simp] theorem issue_cmd (s : State) (w : Word) : (s.issue w).cmd = w := rfl
@[simp] theorem issue_r (s : State) (w : Word) : (s.issue w).r = s.r := rfl
@[simp] theorem issue_xlen (s : State) (w : Word) : (s.issue w).xlen = s.xlen := rfl
@[simp] theorem issue_xbuf (s : State) (w : Word) : (s.issue w).xbuf = s.xbuf := rfl
@[simp] theorem issue_busy (s : State) (w : Word) : (s.issue w).busy = true := rfl
@[simp] theorem issue_errSeen (s : State) (w : Word) : (s.issue w).errSeen = s.errSeen := rfl
@[simp] theorem issue_err (s : State) (w : Word) : (s.issue w).err = s.err := rfl
@[simp] theorem issue_resetLine (s : State) (w : Word) : (s.issue w).resetLine = s.resetLine := rfl
@[simp] theorem issue_lat (s : State) (w : Word) : (s.issue w).lat = Config.latency s.draws := rfl
@[simp] theorem issue_awaiting (s : State) (w : Word) : (s.issue w).awaiting = true := rfl
@[simp] theorem issue_host (s : State) (w : Word) : (s.issue w).host = s.host := rfl
@[simp] theorem issue_busData (s : State) (w : Word) : (s.issue w).busData = s.busData := rfl
@[simp] theorem issue_draws (s : State) (w : Word) : (s.issue w).draws = s.draws + 1 := rfl
@[simp] theorem issue_epoch (s : State) (w : Word) : (s.issue w).epoch = s.epoch := rfl

/-! ## assertReset -/

@[simp] theorem assertReset_params (s : State) : (s.assertReset).params = s.params := rfl
@[simp] theorem assertReset_slots (s : State) : (s.assertReset).slots = Vector.replicate 16 Slot.reset := rfl
@[simp] theorem assertReset_a (s : State) : (s.assertReset).a = 0 := rfl
@[simp] theorem assertReset_b (s : State) : (s.assertReset).b = 0 := rfl
@[simp] theorem assertReset_cmd (s : State) : (s.assertReset).cmd = 0 := rfl
@[simp] theorem assertReset_r (s : State) : (s.assertReset).r = 0 := rfl
@[simp] theorem assertReset_xlen (s : State) : (s.assertReset).xlen = 0 := rfl
@[simp] theorem assertReset_xbuf (s : State) : (s.assertReset).xbuf = [] := rfl
@[simp] theorem assertReset_busy (s : State) : (s.assertReset).busy = false := rfl
@[simp] theorem assertReset_errSeen (s : State) : (s.assertReset).errSeen = false := rfl
@[simp] theorem assertReset_err (s : State) : (s.assertReset).err = .ok := rfl
@[simp] theorem assertReset_resetLine (s : State) : (s.assertReset).resetLine = true := rfl
@[simp] theorem assertReset_lat (s : State) : (s.assertReset).lat = 0 := rfl
@[simp] theorem assertReset_awaiting (s : State) : (s.assertReset).awaiting = false := rfl
@[simp] theorem assertReset_host (s : State) : (s.assertReset).host = s.host := rfl
@[simp] theorem assertReset_busData (s : State) : (s.assertReset).busData = s.busData := rfl
@[simp] theorem assertReset_draws (s : State) : (s.assertReset).draws = s.draws := rfl
@[simp] theorem assertReset_epoch (s : State) : (s.assertReset).epoch = s.epoch + 1 := rfl

/-! ## withFetchWord -/

@[simp] theorem withFetchWord_params (s : State) (nbits w : Nat) : (s.withFetchWord nbits w).params = s.params := rfl
@[simp] theorem withFetchWord_slots (s : State) (nbits w : Nat) : (s.withFetchWord nbits w).slots = s.slots := rfl
@[simp] theorem withFetchWord_a (s : State) (nbits w : Nat) : (s.withFetchWord nbits w).a = s.a := rfl
@[simp] theorem withFetchWord_b (s : State) (nbits w : Nat) : (s.withFetchWord nbits w).b = s.b := rfl
@[simp] theorem withFetchWord_cmd (s : State) (nbits w : Nat) : (s.withFetchWord nbits w).cmd = tableWord nbits w := rfl
@[simp] theorem withFetchWord_r (s : State) (nbits w : Nat) : (s.withFetchWord nbits w).r = s.r := rfl
@[simp] theorem withFetchWord_xlen (s : State) (nbits w : Nat) : (s.withFetchWord nbits w).xlen = s.xlen := rfl
@[simp] theorem withFetchWord_xbuf (s : State) (nbits w : Nat) : (s.withFetchWord nbits w).xbuf = s.xbuf := rfl
@[simp] theorem withFetchWord_busy (s : State) (nbits w : Nat) : (s.withFetchWord nbits w).busy = true := rfl
@[simp] theorem withFetchWord_errSeen (s : State) (nbits w : Nat) : (s.withFetchWord nbits w).errSeen = s.errSeen := rfl
@[simp] theorem withFetchWord_err (s : State) (nbits w : Nat) : (s.withFetchWord nbits w).err = s.err := rfl
@[simp] theorem withFetchWord_resetLine (s : State) (nbits w : Nat) : (s.withFetchWord nbits w).resetLine = false := rfl
@[simp] theorem withFetchWord_lat (s : State) (nbits w : Nat) : (s.withFetchWord nbits w).lat = 0 := rfl
@[simp] theorem withFetchWord_awaiting (s : State) (nbits w : Nat) : (s.withFetchWord nbits w).awaiting = true := rfl
@[simp] theorem withFetchWord_host (s : State) (nbits w : Nat) : (s.withFetchWord nbits w).host = s.host := rfl
@[simp] theorem withFetchWord_busData (s : State) (nbits w : Nat) : (s.withFetchWord nbits w).busData = s.busData := rfl
@[simp] theorem withFetchWord_draws (s : State) (nbits w : Nat) : (s.withFetchWord nbits w).draws = s.draws := rfl
@[simp] theorem withFetchWord_epoch (s : State) (nbits w : Nat) : (s.withFetchWord nbits w).epoch = s.epoch := rfl

/-! ## withProgram -/

@[simp] theorem withProgram_params (s : State) (lines : List Line) : (s.withProgram lines).params = s.params := rfl
@[simp] theorem withProgram_slots (s : State) (lines : List Line) : (s.withProgram lines).slots = s.slots := rfl
@[simp] theorem withProgram_a (s : State) (lines : List Line) : (s.withProgram lines).a = s.a := rfl
@[simp] theorem withProgram_b (s : State) (lines : List Line) : (s.withProgram lines).b = s.b := rfl
@[simp] theorem withProgram_cmd (s : State) (lines : List Line) : (s.withProgram lines).cmd = s.cmd := rfl
@[simp] theorem withProgram_r (s : State) (lines : List Line) : (s.withProgram lines).r = s.r := rfl
@[simp] theorem withProgram_xlen (s : State) (lines : List Line) : (s.withProgram lines).xlen = s.xlen := rfl
@[simp] theorem withProgram_xbuf (s : State) (lines : List Line) : (s.withProgram lines).xbuf = s.xbuf := rfl
@[simp] theorem withProgram_busy (s : State) (lines : List Line) : (s.withProgram lines).busy = s.busy := rfl
@[simp] theorem withProgram_errSeen (s : State) (lines : List Line) : (s.withProgram lines).errSeen = s.errSeen := rfl
@[simp] theorem withProgram_err (s : State) (lines : List Line) : (s.withProgram lines).err = s.err := rfl
@[simp] theorem withProgram_resetLine (s : State) (lines : List Line) : (s.withProgram lines).resetLine = s.resetLine := rfl
@[simp] theorem withProgram_lat (s : State) (lines : List Line) : (s.withProgram lines).lat = s.lat := rfl
@[simp] theorem withProgram_awaiting (s : State) (lines : List Line) : (s.withProgram lines).awaiting = s.awaiting := rfl
@[simp] theorem withProgram_host (s : State) (lines : List Line) : (s.withProgram lines).host = programActs s.params lines := rfl
@[simp] theorem withProgram_busData (s : State) (lines : List Line) : (s.withProgram lines).busData = s.busData := rfl
@[simp] theorem withProgram_draws (s : State) (lines : List Line) : (s.withProgram lines).draws = s.draws := rfl
@[simp] theorem withProgram_epoch (s : State) (lines : List Line) : (s.withProgram lines).epoch = s.epoch := rfl

/-! ## withLengthRead -/

@[simp] theorem withLengthRead_params (s : State) (k : SlotId) : (s.withLengthRead k).params = s.params := rfl
@[simp] theorem withLengthRead_slots (s : State) (k : SlotId) : (s.withLengthRead k).slots = s.slots := rfl
@[simp] theorem withLengthRead_a (s : State) (k : SlotId) : (s.withLengthRead k).a = s.a := rfl
@[simp] theorem withLengthRead_b (s : State) (k : SlotId) : (s.withLengthRead k).b = s.b := rfl
@[simp] theorem withLengthRead_cmd (s : State) (k : SlotId) : (s.withLengthRead k).cmd = s.cmd := rfl
@[simp] theorem withLengthRead_r (s : State) (k : SlotId) : (s.withLengthRead k).r = s.r := rfl
@[simp] theorem withLengthRead_xlen (s : State) (k : SlotId) : (s.withLengthRead k).xlen = s.xlen := rfl
@[simp] theorem withLengthRead_xbuf (s : State) (k : SlotId) : (s.withLengthRead k).xbuf = s.xbuf := rfl
@[simp] theorem withLengthRead_busy (s : State) (k : SlotId) : (s.withLengthRead k).busy = s.busy := rfl
@[simp] theorem withLengthRead_errSeen (s : State) (k : SlotId) : (s.withLengthRead k).errSeen = s.errSeen := rfl
@[simp] theorem withLengthRead_err (s : State) (k : SlotId) : (s.withLengthRead k).err = s.err := rfl
@[simp] theorem withLengthRead_resetLine (s : State) (k : SlotId) : (s.withLengthRead k).resetLine = s.resetLine := rfl
@[simp] theorem withLengthRead_lat (s : State) (k : SlotId) : (s.withLengthRead k).lat = s.lat := rfl
@[simp] theorem withLengthRead_awaiting (s : State) (k : SlotId) : (s.withLengthRead k).awaiting = s.awaiting := rfl
@[simp] theorem withLengthRead_host (s : State) (k : SlotId) : (s.withLengthRead k).host = lengthActs s.params k := rfl
@[simp] theorem withLengthRead_busData (s : State) (k : SlotId) : (s.withLengthRead k).busData = s.busData := rfl
@[simp] theorem withLengthRead_draws (s : State) (k : SlotId) : (s.withLengthRead k).draws = s.draws := rfl
@[simp] theorem withLengthRead_epoch (s : State) (k : SlotId) : (s.withLengthRead k).epoch = s.epoch := rfl

/-! ## withSliceRead -/

@[simp] theorem withSliceRead_params (s : State) (k : SlotId) : (s.withSliceRead k).params = s.params := rfl
@[simp] theorem withSliceRead_slots (s : State) (k : SlotId) : (s.withSliceRead k).slots = s.slots := rfl
@[simp] theorem withSliceRead_a (s : State) (k : SlotId) : (s.withSliceRead k).a = s.a := rfl
@[simp] theorem withSliceRead_b (s : State) (k : SlotId) : (s.withSliceRead k).b = s.b := rfl
@[simp] theorem withSliceRead_cmd (s : State) (k : SlotId) : (s.withSliceRead k).cmd = s.cmd := rfl
@[simp] theorem withSliceRead_r (s : State) (k : SlotId) : (s.withSliceRead k).r = s.r := rfl
@[simp] theorem withSliceRead_xlen (s : State) (k : SlotId) : (s.withSliceRead k).xlen = s.xlen := rfl
@[simp] theorem withSliceRead_xbuf (s : State) (k : SlotId) : (s.withSliceRead k).xbuf = s.xbuf := rfl
@[simp] theorem withSliceRead_busy (s : State) (k : SlotId) : (s.withSliceRead k).busy = s.busy := rfl
@[simp] theorem withSliceRead_errSeen (s : State) (k : SlotId) : (s.withSliceRead k).errSeen = s.errSeen := rfl
@[simp] theorem withSliceRead_err (s : State) (k : SlotId) : (s.withSliceRead k).err = s.err := rfl
@[simp] theorem withSliceRead_resetLine (s : State) (k : SlotId) : (s.withSliceRead k).resetLine = s.resetLine := rfl
@[simp] theorem withSliceRead_lat (s : State) (k : SlotId) : (s.withSliceRead k).lat = s.lat := rfl
@[simp] theorem withSliceRead_awaiting (s : State) (k : SlotId) : (s.withSliceRead k).awaiting = s.awaiting := rfl
@[simp] theorem withSliceRead_host (s : State) (k : SlotId) : (s.withSliceRead k).host = sliceActs s.params k s.busData.toNat := rfl
@[simp] theorem withSliceRead_busData (s : State) (k : SlotId) : (s.withSliceRead k).busData = s.busData := rfl
@[simp] theorem withSliceRead_draws (s : State) (k : SlotId) : (s.withSliceRead k).draws = s.draws := rfl
@[simp] theorem withSliceRead_epoch (s : State) (k : SlotId) : (s.withSliceRead k).epoch = s.epoch := rfl

end Sys2Proof.Machine
end

