-- ==== Sys2Proof/Laws/Memory.lean ====
section
/-! SUPPORT. What the memory operations do: reading after writing, the addresses a write lists, and that every operation keeps
the canonical form. -/

namespace Sys2Proof.Machine

@[simp] theorem Mem.get?_nil (i : Nat) : Mem.get? [] i = none := rfl

/-- Reading after one write, at every address. -/
theorem Mem.get?_write (m : Mem) (i j : Nat) (b : Byte) :
    Mem.get? (m.write i b) j = if j = i then some b else m.get? j := by
  induction m with
  | nil => simp [Mem.write, Mem.get?]
  | cons c m ih =>
    by_cases h1 : i < c.1
    · simp [Mem.write, Mem.get?, h1]
    · by_cases h2 : i = c.1
      · subst h2; simp only [Mem.write, lt_irrefl, if_false, if_true, Mem.get?]; split <;> simp_all
      · simp only [Mem.write, h1, h2, if_false, Mem.get?, ih]
        by_cases h3 : j = c.1
        · have : j ≠ i := by omega
          simp [h3, Ne.symm h2]
        · simp [h3]

/-- Reading after a fill, at every address. -/
theorem Mem.get?_fill (m : Mem) (f : Nat → Byte) (start n j : Nat) :
    Mem.get? (m.fill f start n) j = if start ≤ j ∧ j < start + n then some (f j) else m.get? j := by
  induction n with
  | zero =>
    have : ¬(start ≤ j ∧ j < start + 0) := by omega
    rw [if_neg this, Mem.fill]
  | succ n ih =>
    rw [Mem.fill, Mem.get?_write, ih]
    by_cases h : j = start + n
    · subst h; simp
    · have : (start ≤ j ∧ j < start + (n + 1)) ↔ (start ≤ j ∧ j < start + n) := by omega
      simp [h, this]

/-- The cells after one write: the written one, or one that was there. -/
theorem Mem.mem_write {m : Mem} {i : Nat} {b : Byte} {x : Host.Cell} (h : x ∈ m.write i b) : x = (i, b) ∨ x ∈ m := by
  induction m with
  | nil => simpa [Mem.write] using h
  | cons c m ih =>
    simp only [Mem.write] at h
    split at h
    · simpa using h
    · split at h
      · rcases List.mem_cons.1 h with h | h
        · exact .inl h
        · exact .inr (List.mem_cons_of_mem _ h)
      · rcases List.mem_cons.1 h with h | h
        · exact .inr (by simp [h])
        · rcases ih h with h | h
          · exact .inl h
          · exact .inr (List.mem_cons_of_mem _ h)

/-- The cells after a fill: in the filled range, or there before. -/
theorem Mem.mem_fill {m : Mem} {f : Nat → Byte} {start n : Nat} {x : Host.Cell} (h : x ∈ m.fill f start n) :
    (start ≤ x.1 ∧ x.1 < start + n) ∨ x ∈ m := by
  induction n with
  | zero => exact .inr h
  | succ n ih =>
    rcases Mem.mem_write h with h | h
    · subst h; exact .inl ⟨by simp, by simp⟩
    · rcases ih h with h | h
      · exact .inl ⟨h.1, by omega⟩
      · exact .inr h

/-- The canonical form, as a fact about every later cell. -/
theorem Mem.wf_cons {c : Host.Cell} {m : Mem} : Mem.wf (c :: m) = true ↔ (∀ x ∈ m, c.1 < x.1) ∧ Mem.wf m = true := by
  induction m generalizing c with
  | nil => simp [Mem.wf]
  | cons d m ih =>
    simp only [Mem.wf, Bool.and_eq_true, decide_eq_true_eq, List.mem_cons, forall_eq_or_imp]
    rw [ih]
    constructor
    · rintro ⟨h, h1, h2⟩; exact ⟨⟨h, fun x hx => h.trans (h1 x hx)⟩, h1, h2⟩
    · rintro ⟨⟨h, _⟩, h1, h2⟩; exact ⟨h, h1, h2⟩

theorem Mem.wf_nil : Mem.wf [] = true := rfl

/-- A write keeps the canonical form. -/
theorem Mem.wf_write {m : Mem} (h : Mem.wf m = true) (i : Nat) (b : Byte) : Mem.wf (m.write i b) = true := by
  induction m with
  | nil => rfl
  | cons c m ih =>
    obtain ⟨h1, h2⟩ := Mem.wf_cons.1 h
    simp only [Mem.write]
    split
    · rename_i hlt
      refine Mem.wf_cons.2 ⟨?_, h⟩
      intro x hx
      rcases List.mem_cons.1 hx with rfl | hx
      · exact hlt
      · exact hlt.trans (h1 x hx)
    · split
      · rename_i heq
        exact Mem.wf_cons.2 ⟨fun x hx => by simpa [heq] using h1 x hx, h2⟩
      · refine Mem.wf_cons.2 ⟨?_, ih h2⟩
        intro x hx
        rcases Mem.mem_write hx with rfl | hx
        · show c.1 < i; omega
        · exact h1 x hx

/-- A fill keeps the canonical form. -/
theorem Mem.wf_fill {m : Mem} (h : Mem.wf m = true) (f : Nat → Byte) (start n : Nat) : Mem.wf (m.fill f start n) = true := by
  induction n with
  | zero => exact h
  | succ n ih => exact Mem.wf_write ih _ _

/-- An address below every listed one is not listed. -/
theorem Mem.get?_of_lt {m : Mem} {i : Nat} (h : ∀ x ∈ m, i < x.1) : m.get? i = none := by
  induction m with
  | nil => rfl
  | cons c m ih =>
    have h0 := h c (by simp)
    simp only [Mem.get?]
    rw [if_neg (by omega), ih fun x hx => h x (List.mem_cons_of_mem _ hx)]

/-- In the canonical form, memories that read alike are equal data. -/
theorem Mem.ext {m m' : Mem} (h : Mem.wf m = true) (h' : Mem.wf m' = true) (hr : ∀ i, m.get? i = m'.get? i) : m = m' := by
  induction m generalizing m' with
  | nil =>
    cases m' with
    | nil => rfl
    | cons c m' => simpa [Mem.get?] using hr c.1
  | cons c m ih =>
    cases m' with
    | nil => simpa [Mem.get?] using hr c.1
    | cons c' m' =>
      obtain ⟨h1, h2⟩ := Mem.wf_cons.1 h
      obtain ⟨h1', h2'⟩ := Mem.wf_cons.1 h'
      have key : c.1 = c'.1 := by
        rcases lt_trichotomy c.1 c'.1 with hlt | heq | hgt
        · have := hr c.1
          rw [Mem.get?, if_pos rfl, Mem.get?_of_lt] at this
          · simp at this
          · intro x hx
            rcases List.mem_cons.1 hx with rfl | hx
            · exact hlt
            · exact hlt.trans (h1' x hx)
        · exact heq
        · have := hr c'.1
          rw [Mem.get?_of_lt, Mem.get?, if_pos rfl] at this
          · simp at this
          · intro x hx
            rcases List.mem_cons.1 hx with rfl | hx
            · exact hgt
            · exact hgt.trans (h1 x hx)
      have hval : c = c' := by
        have := hr c.1
        rw [Mem.get?, if_pos rfl, Mem.get?, if_pos key] at this
        exact Prod.ext key (Option.some.inj this)
      subst hval
      congr 1
      refine ih h2 h2' fun i => ?_
      by_cases hi : i = c.1
      · subst hi; rw [Mem.get?_of_lt h1, Mem.get?_of_lt h1']
      · have := hr i
        rwa [Mem.get?, if_neg hi, Mem.get?, if_neg hi] at this

/-- Writing twice at one address is writing once, the last value. -/
theorem Mem.write_write {m : Mem} (h : Mem.wf m = true) (i : Nat) (b b' : Byte) : (m.write i b).write i b' = m.write i b' :=
  Mem.ext (Mem.wf_write (Mem.wf_write h _ _) _ _) (Mem.wf_write h _ _) fun j => by
    simp only [Mem.get?_write]; split <;> rfl

end Sys2Proof.Machine
end

