-- ==== Sys2Proof/Laws/Bits.lean ====
section
/-! SUPPORT. The masks and bit-level readings of the operand forms. -/

namespace Sys2Proof.Machine

/-- A masked bit takes the value, another keeps its own (41_range R131). -/
theorem getLsbD_applyMask (m b : Byte) (v : Bool) (j : Nat) :
    (applyMask m v b).getLsbD j = if m.getLsbD j then v else b.getLsbD j := by
  cases v with
  | false =>
    show (b &&& ~~~m).getLsbD j = _
    rw [BitVec.getLsbD_and, BitVec.getLsbD_not]
    rcases Nat.lt_or_ge j 8 with hj | hj
    · cases m.getLsbD j <;> simp [hj]
    · rw [BitVec.getLsbD_of_ge b j hj]; simp
  | true =>
    show (b ||| m).getLsbD j = _
    rw [BitVec.getLsbD_or]
    cases m.getLsbD j <;> simp

/-- The one-hot mask's bits (40_bit_access R110). -/
theorem getLsbD_bitMask (p j : Nat) (hj : j < 8) : (bitMask p).getLsbD j = decide (j = p % 8) := by
  have : p % 8 < 8 := Nat.mod_lt _ (by decide)
  unfold bitMask
  generalize p % 8 = q at *
  revert j q; decide

/-- The start mask's bits (41_range R130). -/
theorem getLsbD_startMask (p j : Nat) (hj : j < 8) : (startMask p).getLsbD j = decide (p % 8 ≤ j) := by
  have : p % 8 < 8 := Nat.mod_lt _ (by decide)
  unfold startMask
  generalize p % 8 = q at *
  revert j q; decide

/-- The end mask's bits (41_range R130). -/
theorem getLsbD_endMask (p j : Nat) (hj : j < 8) : (endMask p).getLsbD j = decide (j ≤ (p - 1) % 8) := by
  have : (p - 1) % 8 < 8 := Nat.mod_lt _ (by decide)
  unfold endMask
  generalize (p - 1) % 8 = q at *
  revert j q; decide

/-- A fill byte's bits (41_range R131). -/
theorem getLsbD_fillByte (v : Bool) (j : Nat) (hj : j < 8) : (fillByte v).getLsbD j = v := by
  cases v
  · simp [fillByte]
  · revert j; decide

end Sys2Proof.Machine
end

