-- ==== Sys2Proof/Laws/Decode.lean ====
section
/-! SUPPORT. The command word and its fields are two views of one thing. -/

namespace Sys2Proof

/-- A field that lies above the low part of an append is a field of the high part. -/
theorem extract_append_high {m n : Nat} (x : BitVec m) (y : BitVec n) (i l : Nat) (h : n ≤ i) :
    (x ++ y).extractLsb' i l = x.extractLsb' (i - n) l := by
  ext j hj
  rw [BitVec.getElem_extractLsb', BitVec.getElem_extractLsb', BitVec.getLsbD_append, if_neg (by omega)]
  congr 1; omega

/-- A field that lies inside the low part of an append is a field of the low part. -/
theorem extract_append_low {m n : Nat} (x : BitVec m) (y : BitVec n) (i l : Nat) (h : i + l ≤ n) :
    (x ++ y).extractLsb' i l = y.extractLsb' i l := by
  ext j hj
  rw [BitVec.getElem_extractLsb', BitVec.getElem_extractLsb', BitVec.getLsbD_append, if_pos (by omega)]

theorem extract_all {n : Nat} (x : BitVec n) : x.extractLsb' 0 n = x := by ext j hj; simp

/-- Splitting a packed word gives the fields back: no bit is dropped (30_encoding R86). -/
theorem Fields.ofWord_toWord (f : Fields) : Fields.ofWord f.toWord = f := by
  obtain ⟨opc, d, s, v, w, rsv, imm⟩ := f
  unfold Fields.ofWord Fields.toWord
  congr 1
  · refine (extract_append_low (m := 8) (n := 24) _ _ 0 8 (by decide)).trans ?_
    refine (extract_append_low (m := 5) (n := 19) _ _ 0 8 (by decide)).trans ?_
    refine (extract_append_low (m := 2) (n := 17) _ _ 0 8 (by decide)).trans ?_
    refine (extract_append_low (m := 1) (n := 16) _ _ 0 8 (by decide)).trans ?_
    refine (extract_append_low (m := 4) (n := 12) _ _ 0 8 (by decide)).trans ?_
    refine (extract_append_low (m := 4) (n := 8) _ _ 0 8 (by decide)).trans ?_
    exact extract_all _
  · refine (extract_append_low (m := 8) (n := 24) _ _ 8 4 (by decide)).trans ?_
    refine (extract_append_low (m := 5) (n := 19) _ _ 8 4 (by decide)).trans ?_
    refine (extract_append_low (m := 2) (n := 17) _ _ 8 4 (by decide)).trans ?_
    refine (extract_append_low (m := 1) (n := 16) _ _ 8 4 (by decide)).trans ?_
    refine (extract_append_low (m := 4) (n := 12) _ _ 8 4 (by decide)).trans ?_
    refine (extract_append_high (m := 4) (n := 8) _ _ 8 4 (by decide)).trans ?_
    exact extract_all _
  · refine (extract_append_low (m := 8) (n := 24) _ _ 12 4 (by decide)).trans ?_
    refine (extract_append_low (m := 5) (n := 19) _ _ 12 4 (by decide)).trans ?_
    refine (extract_append_low (m := 2) (n := 17) _ _ 12 4 (by decide)).trans ?_
    refine (extract_append_low (m := 1) (n := 16) _ _ 12 4 (by decide)).trans ?_
    refine (extract_append_high (m := 4) (n := 12) _ _ 12 4 (by decide)).trans ?_
    exact extract_all _
  · refine (extract_append_low (m := 8) (n := 24) _ _ 16 1 (by decide)).trans ?_
    refine (extract_append_low (m := 5) (n := 19) _ _ 16 1 (by decide)).trans ?_
    refine (extract_append_low (m := 2) (n := 17) _ _ 16 1 (by decide)).trans ?_
    refine (extract_append_high (m := 1) (n := 16) _ _ 16 1 (by decide)).trans ?_
    exact extract_all _
  · refine (extract_append_low (m := 8) (n := 24) _ _ 17 2 (by decide)).trans ?_
    refine (extract_append_low (m := 5) (n := 19) _ _ 17 2 (by decide)).trans ?_
    refine (extract_append_high (m := 2) (n := 17) _ _ 17 2 (by decide)).trans ?_
    exact extract_all _
  · refine (extract_append_low (m := 8) (n := 24) _ _ 19 5 (by decide)).trans ?_
    refine (extract_append_high (m := 5) (n := 19) _ _ 19 5 (by decide)).trans ?_
    exact extract_all _
  · refine (extract_append_high (m := 8) (n := 24) _ _ 24 8 (by decide)).trans ?_
    exact extract_all _

/-- Two neighbouring fields of a word, appended. -/
theorem extract_join {n : Nat} (x : BitVec n) (i a b : Nat) :
    x.extractLsb' (i + a) b ++ x.extractLsb' i a = x.extractLsb' i (b + a) := by
  ext j hj
  rw [BitVec.getElem_append]
  split
  · simp
  · simp; congr 1; omega

/-- Packing the split fields gives the word back. -/
theorem Fields.toWord_ofWord (w : Word) : (Fields.ofWord w).toWord = w := by
  unfold Fields.ofWord Fields.toWord
  have h1 := extract_join w 0 8 4
  have h2 := extract_join w 0 12 4
  have h3 := extract_join w 0 16 1
  have h4 := extract_join w 0 17 2
  have h5 := extract_join w 0 19 5
  have h6 := extract_join w 0 24 8
  simp only [Nat.zero_add, Nat.reduceAdd] at h1 h2 h3 h4 h5 h6
  rw [h1, h2, h3, h4, h5, h6]
  exact extract_all w

/-- The fields of an encoded command (30_encoding R86, R92). -/
@[simp] theorem fields_encode (i : Instr) : Fields.ofWord (encode i) = i.fields := Fields.ofWord_toWord _

/-- The fields' bits under a mask. -/
def Fields.mask (f g : Fields) : Fields where
  opc := f.opc &&& g.opc
  d := f.d &&& g.d
  s := f.s &&& g.s
  v := f.v &&& g.v
  w := f.w &&& g.w
  rsv := f.rsv &&& g.rsv
  imm := f.imm &&& g.imm

/-- The bits of a packed word under a packed mask, field by field. -/
theorem Fields.toWord_and (f g : Fields) : f.toWord &&& g.toWord = (f.mask g).toWord := by
  have h : ∀ i l, (f.toWord &&& g.toWord).extractLsb' i l = f.toWord.extractLsb' i l &&& g.toWord.extractLsb' i l := by
    intro i l; ext j hj; simp
  have hf := Fields.ofWord_toWord f
  have hg := Fields.ofWord_toWord g
  have key : Fields.ofWord (f.toWord &&& g.toWord) = f.mask g := by
    unfold Fields.ofWord Fields.mask
    congr 1
    · exact (h _ _).trans (congrArg₂ _ (congrArg Fields.opc hf) (congrArg Fields.opc hg))
    · exact (h _ _).trans (congrArg₂ _ (congrArg Fields.d hf) (congrArg Fields.d hg))
    · exact (h _ _).trans (congrArg₂ _ (congrArg Fields.s hf) (congrArg Fields.s hg))
    · exact (h _ _).trans (congrArg₂ _ (congrArg Fields.v hf) (congrArg Fields.v hg))
    · exact (h _ _).trans (congrArg₂ _ (congrArg Fields.w hf) (congrArg Fields.w hg))
    · exact (h _ _).trans (congrArg₂ _ (congrArg Fields.rsv hf) (congrArg Fields.rsv hg))
    · exact (h _ _).trans (congrArg₂ _ (congrArg Fields.imm hf) (congrArg Fields.imm hg))
  rw [← key, Fields.toWord_ofWord]

end Sys2Proof
end

