-- ==== Sys2Proof/Laws/Ops.lean ====
section
/-! SUPPORT. One lemma for each shared operation that says everything it can do to a slot, a byte and a bit. -/

namespace Sys2Proof.Machine

/-! ## Slots -/

theorem toNat_ne_of_ne {k j : SlotId} (h : k ≠ j) : k.toNat ≠ j.toNat := fun h' => h (BitVec.eq_of_toNat_eq h')

@[simp] theorem slot_setSlot_self (s : State) (k : SlotId) (c : Slot) : (s.setSlot k c).slot k = c := by
  simp [State.slot, State.setSlot]

theorem slot_setSlot_ne (s : State) {k j : SlotId} (c : Slot) (h : j ≠ k) : (s.setSlot k c).slot j = s.slot j := by
  simp [State.slot, State.setSlot, (toNat_ne_of_ne h).symm]

/-- Replacing a slot touches that slot alone (20_memory R82). -/
theorem slot_setSlot (s : State) (k j : SlotId) (c : Slot) : (s.setSlot k c).slot j = if j = k then c else s.slot j := by
  split
  · next h => subst h; simp
  · next h => exact slot_setSlot_ne s c h

/-- The states of two machines are equal when all but the slots agree and each slot agrees. -/
theorem slots_ext {s t : State} (h : ∀ k, s.slot k = t.slot k) : s.slots = t.slots := by
  ext1 i hi
  have := h (BitVec.ofNat 4 i)
  simpa [State.slot, Nat.mod_eq_of_lt hi] using this

/-! ## Growth -/

/-- Everything growth does to its slot (20_memory R65). -/
theorem slot_grow_self (s : State) (k : SlotId) (n : Nat) :
    (s.grow k n).slot k = { s.slot k with
      len := max (s.slot k).len n, buf := (s.slot k).buf.fill (fun _ => 0x00) (s.slot k).len (n - (s.slot k).len) } := by
  unfold State.grow
  by_cases h : (s.slot k).len < n
  · simp [h, Nat.max_eq_right h.le]
  · have h0 : n - (s.slot k).len = 0 := by omega
    have h1 : max (s.slot k).len n = (s.slot k).len := by omega
    simp [h, h0, h1, Mem.fill]

theorem slot_grow_ne (s : State) {k j : SlotId} (n : Nat) (h : j ≠ k) : (s.grow k n).slot j = s.slot j := by
  unfold State.grow
  dsimp only
  split
  · exact slot_setSlot_ne s _ h
  · rfl

@[simp] theorem len_grow (s : State) (k : SlotId) (n : Nat) : ((s.grow k n).slot k).len = max (s.slot k).len n := by
  rw [slot_grow_self]

@[simp] theorem size_grow (s : State) (k : SlotId) (n : Nat) : ((s.grow k n).slot k).size = (s.slot k).size := by
  rw [slot_grow_self]

@[simp] theorem valid_grow (s : State) (k : SlotId) (n : Nat) : ((s.grow k n).slot k).valid = (s.slot k).valid := by
  rw [slot_grow_self]

/-- The bytes after growth: the new ones are 0, the old ones unchanged (20_memory R65). -/
theorem byte_grow (s : State) (k : SlotId) (n i : Nat) :
    (s.grow k n).byte k i = if (s.slot k).len ≤ i ∧ i < n then 0x00 else s.byte k i := by
  unfold State.byte
  rw [slot_grow_self, grow_epoch]
  simp only [Mem.get?_fill]
  by_cases h : (s.slot k).len ≤ i ∧ i < n
  · rw [if_pos h, if_pos (by omega)]; rfl
  · rw [if_neg h, if_neg (by omega)]

/-! ## Writes of bytes and bits -/

theorem slot_writeByte_self (s : State) (k : SlotId) (i : Nat) (b : Byte) :
    (s.writeByte k i b).slot k = { s.slot k with buf := (s.slot k).buf.write i b } := by simp [State.writeByte]

theorem slot_writeByte_ne (s : State) {k j : SlotId} (i : Nat) (b : Byte) (h : j ≠ k) :
    (s.writeByte k i b).slot j = s.slot j := slot_setSlot_ne s _ h

@[simp] theorem len_writeByte (s : State) (k : SlotId) (i : Nat) (b : Byte) :
    ((s.writeByte k i b).slot k).len = (s.slot k).len := by simp [State.writeByte]

@[simp] theorem size_writeByte (s : State) (k : SlotId) (i : Nat) (b : Byte) :
    ((s.writeByte k i b).slot k).size = (s.slot k).size := by simp [State.writeByte]

@[simp] theorem valid_writeByte (s : State) (k : SlotId) (i : Nat) (b : Byte) :
    ((s.writeByte k i b).slot k).valid = (s.slot k).valid := by simp [State.writeByte]

/-- The bytes after one byte's write (40_bit_access R117). -/
theorem byte_writeByte (s : State) (k : SlotId) (i j : Nat) (b : Byte) :
    (s.writeByte k i b).byte k j = if j = i then b else s.byte k j := by
  unfold State.byte
  rw [slot_writeByte_self, writeByte_epoch]
  simp only [Mem.get?_write]
  split <;> simp

theorem slot_fillBytes_self (s : State) (k : SlotId) (f : Nat → Byte) (i n : Nat) :
    (s.fillBytes k f i n).slot k = { s.slot k with buf := (s.slot k).buf.fill f i n } := by simp [State.fillBytes]

theorem slot_fillBytes_ne (s : State) {k j : SlotId} (f : Nat → Byte) (i n : Nat) (h : j ≠ k) :
    (s.fillBytes k f i n).slot j = s.slot j := slot_setSlot_ne s _ h

@[simp] theorem len_fillBytes (s : State) (k : SlotId) (f : Nat → Byte) (i n : Nat) :
    ((s.fillBytes k f i n).slot k).len = (s.slot k).len := by simp [State.fillBytes]

@[simp] theorem size_fillBytes (s : State) (k : SlotId) (f : Nat → Byte) (i n : Nat) :
    ((s.fillBytes k f i n).slot k).size = (s.slot k).size := by simp [State.fillBytes]

@[simp] theorem valid_fillBytes (s : State) (k : SlotId) (f : Nat → Byte) (i n : Nat) :
    ((s.fillBytes k f i n).slot k).valid = (s.slot k).valid := by simp [State.fillBytes]

/-- The bytes after a fill (41_range R132). -/
theorem byte_fillBytes (s : State) (k : SlotId) (f : Nat → Byte) (i n j : Nat) :
    (s.fillBytes k f i n).byte k j = if i ≤ j ∧ j < i + n then f j else s.byte k j := by
  unfold State.byte
  rw [slot_fillBytes_self, fillBytes_epoch]
  simp only [Mem.get?_fill]
  split <;> simp

theorem slot_maskByte_ne (s : State) {k j : SlotId} (i : Nat) (m : Byte) (v : Bool) (h : j ≠ k) :
    (s.maskByte k i m v).slot j = s.slot j := slot_setSlot_ne s _ h

@[simp] theorem len_maskByte (s : State) (k : SlotId) (i : Nat) (m : Byte) (v : Bool) :
    ((s.maskByte k i m v).slot k).len = (s.slot k).len := len_writeByte ..

@[simp] theorem size_maskByte (s : State) (k : SlotId) (i : Nat) (m : Byte) (v : Bool) :
    ((s.maskByte k i m v).slot k).size = (s.slot k).size := size_writeByte ..

@[simp] theorem valid_maskByte (s : State) (k : SlotId) (i : Nat) (m : Byte) (v : Bool) :
    ((s.maskByte k i m v).slot k).valid = (s.slot k).valid := valid_writeByte ..

/-- The bits after a masked write of byte `i` (41_range R131). -/
theorem readBit_maskByte (s : State) (k : SlotId) (i : Nat) (m : Byte) (v : Bool) (p : Nat) :
    (s.maskByte k i m v).readBit k p = if p / 8 = i ∧ m.getLsbD (p % 8) = true then v else s.readBit k p := by
  unfold State.maskByte State.readBit byteIndex bitOffset
  rw [byte_writeByte]
  by_cases h : p / 8 = i
  · subst h; simp [getLsbD_applyMask]
  · simp [h]

/-- The bits after one bit's write: that bit, and no other (40_bit_access R110). -/
theorem readBit_writeBit (s : State) (k : SlotId) (p q : Nat) (v : Bool) :
    (s.writeBit k p v).readBit k q = if q = p then v else s.readBit k q := by
  unfold State.writeBit
  rw [readBit_maskByte, getLsbD_bitMask _ _ (Nat.mod_lt _ (by decide))]
  have : (q / 8 = byteIndex p ∧ decide (q % 8 = p % 8) = true) ↔ q = p := by unfold byteIndex; simp; omega
  simp only [this]

/-- Raising the size: the size alone (10_state R30). -/
theorem slot_raiseSize_self (s : State) (k : SlotId) (v : Nat) :
    (s.raiseSize k v).slot k = { s.slot k with size := max (s.slot k).size v } := by simp [State.raiseSize]

theorem slot_raiseSize_ne (s : State) {k j : SlotId} (v : Nat) (h : j ≠ k) : (s.raiseSize k v).slot j = s.slot j :=
  slot_setSlot_ne s _ h

@[simp] theorem byte_raiseSize (s : State) (k j : SlotId) (v i : Nat) : (s.raiseSize k v).byte j i = s.byte j i := by
  unfold State.byte
  by_cases h : j = k
  · subst h; rw [slot_raiseSize_self, raiseSize_epoch]
  · rw [slot_raiseSize_ne s v h, raiseSize_epoch]

/-! ## Constructors -/

/-- Everything a constructor does to its slot (43_codec R170-R175). -/
theorem slot_construct_self (s : State) (k : SlotId) (len size : Nat) (f : Nat → Byte) :
    (s.construct k len size f).slot k =
      { valid := true, len := len, size := size, buf := (s.slot k).buf.fill f 0 len } := by simp [State.construct]

theorem slot_construct_ne (s : State) {k j : SlotId} (len size : Nat) (f : Nat → Byte) (h : j ≠ k) :
    (s.construct k len size f).slot j = s.slot j := slot_setSlot_ne s _ h

/-- The bytes of a constructed container. -/
theorem byte_construct (s : State) (k : SlotId) (len size : Nat) (f : Nat → Byte) (i : Nat) (h : i < len) :
    (s.construct k len size f).byte k i = f i := by
  unfold State.byte
  rw [slot_construct_self]
  simp [Mem.get?_fill, h]

/-! ## XBUF -/

/-- XBUF after one byte's write. -/
theorem xread_xwrite (s : State) (i j : Nat) (b : Byte) :
    (s.xwrite i b).xread j = if j = i then b else s.xread j := by
  unfold State.xread
  simp only [xwrite_xbuf, xwrite_epoch, Mem.get?_write]
  split <;> simp

/-! ## Completion -/

@[simp] theorem slot_complete (c : ErrCode) (s : State) (k : SlotId) : (s.complete c).slot k = s.slot k := rfl

@[simp] theorem byte_complete (c : ErrCode) (s : State) (k : SlotId) (i : Nat) : (s.complete c).byte k i = s.byte k i := rfl

@[simp] theorem readBit_complete (c : ErrCode) (s : State) (k : SlotId) (p : Nat) :
    (s.complete c).readBit k p = s.readBit k p := rfl

@[simp] theorem xread_complete (c : ErrCode) (s : State) (i : Nat) : (s.complete c).xread i = s.xread i := rfl

/-- Everything a command can do: its effect with code OK, or an error that changes STATUS alone (00_scope R15). -/
theorem command_eq (s : State) (c : ErrCode) (e : State) :
    s.command c e = .next (if c = .ok then e.complete .ok else s.complete c) := by
  unfold State.command State.raise; split <;> rfl

theorem command_ok (s e : State) : s.command .ok e = .next (e.complete .ok) := rfl

@[simp] theorem firstError_nil : firstError [] = .ok := rfl

theorem firstError_cons (x : Bool) (c : ErrCode) (l : List (Bool × ErrCode)) :
    firstError ((x, c) :: l) = if x = true then c else firstError l := by cases x <;> rfl

end Sys2Proof.Machine
end

