-- ==== Sys2Proof/Laws/Exec.lean ====
section
/-! SUPPORT. What a command can do, said once: `exec` is a check phase and an effect phase (00_scope R15), and an effect phase
touches the receiver's slot, R, XLEN and XBUF at most. -/

namespace Sys2Proof.Machine

/-- A command's check phase. -/
def checkOf : Instr → State → ErrCode
  | .get d, s => checkGet d s
  | .set d _, s => checkSet d s
  | .setbo d _, s => checkSetbo d s
  | .getb d, s => checkGetb d s
  | .setb d _, s => checkSetb d s
  | .setr d _, s => checkSetr d s
  | .setrb d _, s => checkSetrb d s
  | .getrb d, s => checkGetrb d s
  | .and d o, s | .or d o, s | .xor d o, s | .nor d o, s | .xnor d o, s | .nand d o, s => checkLogic d o s
  | .not d, s => checkNot d s
  | .new _, s => checkNew s
  | .ldint _ _, _ => .ok
  | .ldbytes _, s => checkLdbytes s
  | .clone _ o, s => checkClone o s
  | .getsize d, s | .getlen d, s => checkQuery d s

/-- A command's effect phase. -/
def effectOf : Instr → State → State
  | .get d, s => effectGet d s
  | .set d v, s => effectSet d v s
  | .setbo d v, s => effectSetbo d v s
  | .getb d, s => effectGetb d s
  | .setb d imm, s => effectSetb d imm s
  | .setr d v, s => effectSetr d v s
  | .setrb d imm, s => effectSetrb d imm s
  | .getrb d, s => effectGetrb d s
  | .and d o, s => effectLogic byteAnd d o s
  | .or d o, s => effectLogic byteOr d o s
  | .xor d o, s => effectLogic byteXor d o s
  | .nor d o, s => effectLogic byteNor d o s
  | .xnor d o, s => effectLogic byteXnor d o s
  | .nand d o, s => effectLogic byteNand d o s
  | .not d, s => effectNot d s
  | .new d, s => effectNew d s
  | .ldint d w, s => effectLdint d w s
  | .ldbytes d, s => effectLdbytes d s
  | .clone d o, s => effectClone d o s
  | .getsize d, s => { s with r := BitVec.ofNat 32 (s.slot d).size }
  | .getlen d, s => { s with r := BitVec.ofNat 32 (s.slot d).len }

/-- Every command is its check phase, its effect phase and a completion (00_scope R15). -/
theorem exec_eq_command (i : Instr) (s : State) : exec i s = s.command (checkOf i s) (effectOf i s) := by cases i <;> rfl

/-- Every command completes, with one state (60_exceptions R206). -/
theorem exec_eq (i : Instr) (s : State) :
    exec i s = .next (if checkOf i s = .ok then (effectOf i s).complete .ok else s.complete (checkOf i s)) := by
  rw [exec_eq_command, command_eq]

/-- `t` is `s` but for the content of slot `d`. -/
def OnlySlot (d : SlotId) (s t : State) : Prop := t = { s with slots := t.slots } ∧ ∀ j, j ≠ d → t.slot j = s.slot j

theorem OnlySlot.refl (d : SlotId) (s : State) : OnlySlot d s s := ⟨rfl, fun _ _ => rfl⟩

theorem OnlySlot.trans {d : SlotId} {s t u : State} (h : OnlySlot d s t) (h' : OnlySlot d t u) : OnlySlot d s u := by
  refine ⟨?_, fun j hj => (h'.2 j hj).trans (h.2 j hj)⟩
  rw [h'.1, h.1]

theorem onlySlot_setSlot (s : State) (d : SlotId) (c : Slot) : OnlySlot d s (s.setSlot d c) :=
  ⟨rfl, fun _ hj => slot_setSlot_ne s c hj⟩

theorem onlySlot_grow (s : State) (d : SlotId) (n : Nat) : OnlySlot d s (s.grow d n) := by
  unfold State.grow
  dsimp only
  split
  · exact onlySlot_setSlot ..
  · exact .refl ..

theorem onlySlot_writeByte (s : State) (d : SlotId) (i : Nat) (b : Byte) : OnlySlot d s (s.writeByte d i b) :=
  onlySlot_setSlot ..

theorem onlySlot_fillBytes (s : State) (d : SlotId) (f : Nat → Byte) (i n : Nat) : OnlySlot d s (s.fillBytes d f i n) :=
  onlySlot_setSlot ..

theorem onlySlot_maskByte (s : State) (d : SlotId) (i : Nat) (m : Byte) (v : Bool) : OnlySlot d s (s.maskByte d i m v) :=
  onlySlot_setSlot ..

theorem onlySlot_raiseSize (s : State) (d : SlotId) (v : Nat) : OnlySlot d s (s.raiseSize d v) := onlySlot_setSlot ..

theorem onlySlot_construct (s : State) (d : SlotId) (len size : Nat) (f : Nat → Byte) :
    OnlySlot d s (s.construct d len size f) := onlySlot_setSlot ..

theorem onlySlot_writeRange (d : SlotId) (start stop : Nat) (v : Bool) (s : State) :
    OnlySlot d s (writeRange d start stop v s) := by
  unfold writeRange
  dsimp only
  split
  · exact (onlySlot_fillBytes ..).trans (onlySlot_maskByte ..)
  · exact ((onlySlot_fillBytes ..).trans (onlySlot_maskByte ..)).trans (onlySlot_maskByte ..)

theorem onlySlot_writeBitGrowing (d : SlotId) (p : Nat) (v : Bool) (s : State) : OnlySlot d s (writeBitGrowing d p v s) :=
  ((onlySlot_grow ..).trans (onlySlot_maskByte ..)).trans (onlySlot_raiseSize ..)

/-- Everything an effect phase can touch: the receiver's slot, or R, or XBUF and XLEN (10_state R40, R42, R43). -/
theorem effectOf_cases (i : Instr) (s : State) :
    OnlySlot i.receiver s (effectOf i s) ∨
      (∃ w, effectOf i s = { s with r := w } ∧
        (i = .get i.receiver ∨ i = .getb i.receiver ∨ i = .getsize i.receiver ∨ i = .getlen i.receiver)) ∨
      (∃ m w, effectOf i s = { s with xbuf := m, xlen := w } ∧ i = .getrb i.receiver) := by
  cases i with
  | get d => exact .inr (.inl ⟨_, rfl, .inl rfl⟩)
  | set d v => exact .inl (onlySlot_writeBitGrowing ..)
  | setbo d v => exact .inl (onlySlot_writeBitGrowing ..)
  | getb d => exact .inr (.inl ⟨_, rfl, .inr (.inl rfl)⟩)
  | setb d imm => exact .inl (((onlySlot_grow ..).trans (onlySlot_writeByte ..)).trans (onlySlot_raiseSize ..))
  | setr d v => exact .inl (((onlySlot_grow ..).trans (onlySlot_raiseSize ..)).trans (onlySlot_writeRange ..))
  | setrb d imm => exact .inl (((onlySlot_grow ..).trans (onlySlot_fillBytes ..)).trans (onlySlot_raiseSize ..))
  | getrb d => exact .inr (.inr ⟨_, _, rfl, rfl⟩)
  | and d o => exact .inl (onlySlot_fillBytes ..)
  | or d o => exact .inl (onlySlot_fillBytes ..)
  | xor d o => exact .inl (onlySlot_fillBytes ..)
  | nor d o => exact .inl (onlySlot_fillBytes ..)
  | xnor d o => exact .inl (onlySlot_fillBytes ..)
  | nand d o => exact .inl (onlySlot_fillBytes ..)
  | not d => exact .inl (onlySlot_fillBytes ..)
  | new d => exact .inl (onlySlot_construct ..)
  | ldint d w => exact .inl (onlySlot_construct ..)
  | ldbytes d => exact .inl (onlySlot_construct ..)
  | clone d o =>
    left
    show OnlySlot d s (effectClone d o s)
    unfold effectClone
    split
    · exact .refl ..
    · exact onlySlot_construct ..
  | getsize d => exact .inr (.inl ⟨_, rfl, .inr (.inr (.inl rfl))⟩)
  | getlen d => exact .inr (.inl ⟨_, rfl, .inr (.inr (.inr rfl))⟩)

end Sys2Proof.Machine
end

