-- ==== Sys2Proof/Laws/PerInstr.lean ====
section
/-! SUPPORT. Statements made of every command by its constructor. `WordShape`: the encoder's word lies in its row of
spec/opcode_table.json, by the table's own mask and match (30_encoding R92, R94). -/

namespace Sys2Proof.Laws.WordShape

/-- The row's mask and match in spec/opcode_table.json. -/
def row : Instr → Word × Word
  | .get _ => (0xFFFFF0FF, 0x00000010)
  | .set _ _ => (0xFFFEF0FF, 0x00000011)
  | .setbo _ _ => (0xFFFEF0FF, 0x00000012)
  | .getb _ => (0xFFFFF0FF, 0x00000013)
  | .setb _ _ => (0x00FFF0FF, 0x00000014)
  | .setr _ _ => (0xFFFEF0FF, 0x00000020)
  | .setrb _ _ => (0x00FFF0FF, 0x00000021)
  | .getrb _ => (0xFFFFF0FF, 0x00000022)
  | .and _ _ => (0xFFFF00FF, 0x00000030)
  | .or _ _ => (0xFFFF00FF, 0x00000031)
  | .xor _ _ => (0xFFFF00FF, 0x00000032)
  | .nor _ _ => (0xFFFF00FF, 0x00000033)
  | .xnor _ _ => (0xFFFF00FF, 0x00000034)
  | .nand _ _ => (0xFFFF00FF, 0x00000035)
  | .not _ => (0xFFFFF0FF, 0x00000036)
  | .new _ => (0xFFFFF0FF, 0x00000001)
  | .ldint _ _ => (0xFFF9F0FF, 0x00000002)
  | .ldbytes _ => (0xFFFFF0FF, 0x00000003)
  | .clone _ _ => (0xFFFF00FF, 0x00000004)
  | .getsize _ => (0xFFFFF0FF, 0x00000040)
  | .getlen _ => (0xFFFFF0FF, 0x00000041)

/-- The command's word has its row's bits. -/
def Statement (i : Instr) : Prop := encode i &&& (row i).1 = (row i).2

/-- The fields of a mask that leaves D free, and one more field. -/
def maskD : Fields := { opc := BitVec.allOnes 8, d := 0, s := 0xF, v := 1, w := 3, rsv := 0x1F, imm := 0xFF }
def maskDV : Fields := { maskD with v := 0 }
def maskDI : Fields := { maskD with imm := 0 }
def maskDS : Fields := { maskD with s := 0 }
def maskDW : Fields := { maskD with w := 0 }

/-- The fields of a row's match: its opcode, every other bit 0. -/
def opcodeFields (opc : BitVec 8) : Fields := { opc := opc, d := 0, s := 0, v := 0, w := 0, rsv := 0, imm := 0 }

/-- A command's word under its row's mask, field by field. -/
theorem of_fields (i : Instr) (m : Fields) (hm : m.toWord = (row i).1) (ho : (opcodeFields i.opcode).toWord = (row i).2)
    (h : i.fields.mask m = opcodeFields i.opcode) : Statement i := by
  have := Fields.toWord_and i.fields m
  rw [h, hm, ho] at this
  exact this

theorem maskD_toWord : maskD.toWord = 0xFFFFF0FF := by decide
theorem maskDV_toWord : maskDV.toWord = 0xFFFEF0FF := by decide
theorem maskDI_toWord : maskDI.toWord = 0x00FFF0FF := by decide
theorem maskDS_toWord : maskDS.toWord = 0xFFFF00FF := by decide
theorem maskDW_toWord : maskDW.toWord = 0xFFF9F0FF := by decide

/-- The masked fields of a command, given its unmasked ones. -/
theorem mask_fields (i : Instr) (m : Fields) (h1 : m.opc = BitVec.allOnes 8) (h2 : i.receiver &&& m.d = 0)
    (h3 : i.other.getD 0 &&& m.s = 0) (h4 : i.valueField &&& m.v = 0) (h5 : i.widthField &&& m.w = 0)
    (h7 : i.immField &&& m.imm = 0) : i.fields.mask m = opcodeFields i.opcode := by
  unfold Fields.mask Instr.fields opcodeFields
  dsimp only
  have h6 : (0 : BitVec 5) &&& m.rsv = 0 := BitVec.zero_and
  rw [h1, h2, h3, h4, h5, h6, h7, BitVec.and_allOnes]

theorem get (d : SlotId) : Statement (.get d) :=
  of_fields _ maskD maskD_toWord (show (opcodeFields 0x10).toWord = 0x00000010 by decide)
    (mask_fields _ _ rfl BitVec.and_zero BitVec.zero_and BitVec.zero_and BitVec.zero_and BitVec.zero_and)

theorem set (d : SlotId) (v : Bool) : Statement (.set d v) :=
  of_fields _ maskDV maskDV_toWord (show (opcodeFields 0x11).toWord = 0x00000011 by decide)
    (mask_fields _ _ rfl BitVec.and_zero BitVec.zero_and BitVec.and_zero BitVec.zero_and BitVec.zero_and)

theorem setbo (d : SlotId) (v : Bool) : Statement (.setbo d v) :=
  of_fields _ maskDV maskDV_toWord (show (opcodeFields 0x12).toWord = 0x00000012 by decide)
    (mask_fields _ _ rfl BitVec.and_zero BitVec.zero_and BitVec.and_zero BitVec.zero_and BitVec.zero_and)

theorem getb (d : SlotId) : Statement (.getb d) :=
  of_fields _ maskD maskD_toWord (show (opcodeFields 0x13).toWord = 0x00000013 by decide)
    (mask_fields _ _ rfl BitVec.and_zero BitVec.zero_and BitVec.zero_and BitVec.zero_and BitVec.zero_and)

theorem setb (d : SlotId) (imm : Byte) : Statement (.setb d imm) :=
  of_fields _ maskDI maskDI_toWord (show (opcodeFields 0x14).toWord = 0x00000014 by decide)
    (mask_fields _ _ rfl BitVec.and_zero BitVec.zero_and BitVec.zero_and BitVec.zero_and BitVec.and_zero)

theorem setr (d : SlotId) (v : Bool) : Statement (.setr d v) :=
  of_fields _ maskDV maskDV_toWord (show (opcodeFields 0x20).toWord = 0x00000020 by decide)
    (mask_fields _ _ rfl BitVec.and_zero BitVec.zero_and BitVec.and_zero BitVec.zero_and BitVec.zero_and)

theorem setrb (d : SlotId) (imm : Byte) : Statement (.setrb d imm) :=
  of_fields _ maskDI maskDI_toWord (show (opcodeFields 0x21).toWord = 0x00000021 by decide)
    (mask_fields _ _ rfl BitVec.and_zero BitVec.zero_and BitVec.zero_and BitVec.zero_and BitVec.and_zero)

theorem getrb (d : SlotId) : Statement (.getrb d) :=
  of_fields _ maskD maskD_toWord (show (opcodeFields 0x22).toWord = 0x00000022 by decide)
    (mask_fields _ _ rfl BitVec.and_zero BitVec.zero_and BitVec.zero_and BitVec.zero_and BitVec.zero_and)

theorem and (d : SlotId) (o : SlotId) : Statement (.and d o) :=
  of_fields _ maskDS maskDS_toWord (show (opcodeFields 0x30).toWord = 0x00000030 by decide)
    (mask_fields _ _ rfl BitVec.and_zero BitVec.and_zero BitVec.zero_and BitVec.zero_and BitVec.zero_and)

theorem or (d : SlotId) (o : SlotId) : Statement (.or d o) :=
  of_fields _ maskDS maskDS_toWord (show (opcodeFields 0x31).toWord = 0x00000031 by decide)
    (mask_fields _ _ rfl BitVec.and_zero BitVec.and_zero BitVec.zero_and BitVec.zero_and BitVec.zero_and)

theorem xor (d : SlotId) (o : SlotId) : Statement (.xor d o) :=
  of_fields _ maskDS maskDS_toWord (show (opcodeFields 0x32).toWord = 0x00000032 by decide)
    (mask_fields _ _ rfl BitVec.and_zero BitVec.and_zero BitVec.zero_and BitVec.zero_and BitVec.zero_and)

theorem nor (d : SlotId) (o : SlotId) : Statement (.nor d o) :=
  of_fields _ maskDS maskDS_toWord (show (opcodeFields 0x33).toWord = 0x00000033 by decide)
    (mask_fields _ _ rfl BitVec.and_zero BitVec.and_zero BitVec.zero_and BitVec.zero_and BitVec.zero_and)

theorem xnor (d : SlotId) (o : SlotId) : Statement (.xnor d o) :=
  of_fields _ maskDS maskDS_toWord (show (opcodeFields 0x34).toWord = 0x00000034 by decide)
    (mask_fields _ _ rfl BitVec.and_zero BitVec.and_zero BitVec.zero_and BitVec.zero_and BitVec.zero_and)

theorem nand (d : SlotId) (o : SlotId) : Statement (.nand d o) :=
  of_fields _ maskDS maskDS_toWord (show (opcodeFields 0x35).toWord = 0x00000035 by decide)
    (mask_fields _ _ rfl BitVec.and_zero BitVec.and_zero BitVec.zero_and BitVec.zero_and BitVec.zero_and)

theorem not (d : SlotId) : Statement (.not d) :=
  of_fields _ maskD maskD_toWord (show (opcodeFields 0x36).toWord = 0x00000036 by decide)
    (mask_fields _ _ rfl BitVec.and_zero BitVec.zero_and BitVec.zero_and BitVec.zero_and BitVec.zero_and)

theorem new (d : SlotId) : Statement (.new d) :=
  of_fields _ maskD maskD_toWord (show (opcodeFields 0x01).toWord = 0x00000001 by decide)
    (mask_fields _ _ rfl BitVec.and_zero BitVec.zero_and BitVec.zero_and BitVec.zero_and BitVec.zero_and)

theorem ldint (d : SlotId) (w : IntWidth) : Statement (.ldint d w) :=
  of_fields _ maskDW maskDW_toWord (show (opcodeFields 0x02).toWord = 0x00000002 by decide)
    (mask_fields _ _ rfl BitVec.and_zero BitVec.zero_and BitVec.zero_and BitVec.and_zero BitVec.zero_and)

theorem ldbytes (d : SlotId) : Statement (.ldbytes d) :=
  of_fields _ maskD maskD_toWord (show (opcodeFields 0x03).toWord = 0x00000003 by decide)
    (mask_fields _ _ rfl BitVec.and_zero BitVec.zero_and BitVec.zero_and BitVec.zero_and BitVec.zero_and)

theorem clone (d : SlotId) (o : SlotId) : Statement (.clone d o) :=
  of_fields _ maskDS maskDS_toWord (show (opcodeFields 0x04).toWord = 0x00000004 by decide)
    (mask_fields _ _ rfl BitVec.and_zero BitVec.and_zero BitVec.zero_and BitVec.zero_and BitVec.zero_and)

theorem getsize (d : SlotId) : Statement (.getsize d) :=
  of_fields _ maskD maskD_toWord (show (opcodeFields 0x40).toWord = 0x00000040 by decide)
    (mask_fields _ _ rfl BitVec.and_zero BitVec.zero_and BitVec.zero_and BitVec.zero_and BitVec.zero_and)

theorem getlen (d : SlotId) : Statement (.getlen d) :=
  of_fields _ maskD maskD_toWord (show (opcodeFields 0x41).toWord = 0x00000041 by decide)
    (mask_fields _ _ rfl BitVec.and_zero BitVec.zero_and BitVec.zero_and BitVec.zero_and BitVec.zero_and)

end Sys2Proof.Laws.WordShape
end

