-- ==== Sys2Proof/Laws/Step.lean ====
section
/-! SUPPORT. What a step can be, said once: the engine's step, or the host's with its access and the latency counted down; which
accesses the window takes; and what the host's writes leave alone. -/

namespace Sys2Proof.Machine

/-- The engine's step is next (70_reset R234 step 3). -/
theorem step_engine {s : State} (h : EngineNext s) : step s = engineStep s := by
  obtain ⟨h1, h2, h3⟩ := h
  simp [step, h1, h2, h3]

/-- The host's step is next: its access, on the state with one step less to wait while a command runs. -/
theorem step_host {s : State} {act : HostAct} {rest : List HostAct} (h : HostNext s act rest) :
    step s = State.hostAct
      { s with host := rest, lat := if s.resetLine = false ∧ s.busy = true then s.lat - 1 else s.lat } act := by
  obtain ⟨h1, h2⟩ := h
  unfold step
  by_cases hr : s.resetLine = true
  · simp [hr, hostStep, h1]
  · by_cases hb : s.busy = true
    · have hl : s.lat ≠ 0 := by simp_all
      obtain ⟨n, hn⟩ := Nat.exists_eq_succ_of_ne_zero hl
      simp [hr, hb, hn, hostStep, h1]
    · simp [hr, hb, hostStep, h1]

/-- The host's step on an idle machine. -/
theorem step_idle {s : State} {act : HostAct} {rest : List HostAct} (h : IdleNext s act rest) :
    step s = State.hostAct { s with host := rest } act := by
  obtain ⟨h1, h2, h3, _⟩ := h
  rw [step_host ⟨h1, .inr (.inl h3)⟩]
  simp [h2, h3]

/-- An access in the window and of an allowed shape is no fault (20_memory R72). -/
theorem accessFault_eq_none (p : Params) {bytes off : Nat} (h : off < 0x20000000) (hs : shapeAllowed bytes off = true) :
    accessFault p bytes (p.base + off) = none := by
  unfold accessFault Config.windowBytes
  have e : p.base + off - p.base = off := by omega
  rw [if_neg (by omega), e, if_pos hs]

/-- A write that answers a next state found the machine idle and its last command seen to end (70_reset R235, R236). -/
theorem guardedWrite_next {s t u : State} (h : s.guardedWrite t = .next u) : u = t ∧ s.busy = false ∧ s.awaiting = false := by
  unfold State.guardedWrite State.writeBarred at h
  split at h
  · cases h
  · rename_i hb
    injection h with h
    exact ⟨h.symm, by simpa using hb⟩

/-- `t` is `s` but for XBUF. -/
def OnlyXbuf (s t : State) : Prop := t = { s with xbuf := t.xbuf }

theorem OnlyXbuf.trans {s t u : State} (h : OnlyXbuf s t) (h' : OnlyXbuf t u) : OnlyXbuf s u := by
  unfold OnlyXbuf at *
  rw [h', h]

theorem onlyXbuf_writeByteAt (s : State) (off : Nat) (b : Byte) : OnlyXbuf s (s.writeByteAt off b) := by
  unfold State.writeByteAt OnlyXbuf
  split <;> rfl

/-- A write beyond the registers touches XBUF alone (20_memory R73). -/
theorem onlyXbuf_writeBytes (s : State) (bytes off : Nat) (data : Word) : OnlyXbuf s (s.writeBytes bytes off data) := by
  unfold State.writeBytes
  dsimp only
  split
  · exact onlyXbuf_writeByteAt ..
  · exact (((onlyXbuf_writeByteAt ..).trans (onlyXbuf_writeByteAt ..)).trans (onlyXbuf_writeByteAt ..)).trans
      (onlyXbuf_writeByteAt ..)

/-- A host write keeps XBUF's canonical form (20_memory R71). -/
theorem xbufInv_writeByteAt {s : State} (h : s.XbufInv) (off : Nat) (b : Byte) : (s.writeByteAt off b).XbufInv := by
  unfold State.writeByteAt
  split
  · rename_i hx
    simp only [inXbuf, decide_eq_true_eq] at hx
    refine ⟨Mem.wf_write h.1 _ _, fun x hx' => ?_⟩
    rcases Mem.mem_write hx' with rfl | hx'
    · show off - Config.xbufOffset < s.params.maxBytes
      omega
    · exact h.2 x hx'
  · exact h

/-! XBUF's offsets, written with `Config.xbufOffset` so that no proof computes with the number. -/

/-- XBUF's byte `i` lies in XBUF (20_memory R71). -/
theorem inXbuf_add {p : Params} {i : Nat} (h : i < p.maxBytes) : inXbuf p (Config.xbufOffset + i) = true := by
  simp [inXbuf, h]

/-- XBUF lies above the registers (20_memory R71). -/
theorem not_register (i : Nat) : ¬Config.xbufOffset + i < Config.registersEnd := by
  have h : Config.registersEnd ≤ Config.xbufOffset := by decide
  omega

/-- A read of one byte of XBUF while BUSY = 0 (20_memory R72). -/
theorem byteValue_xbuf {s : State} {i j : Nat} (h : i + j < s.params.maxBytes) (hb : s.busy = false) :
    s.byteValue (Config.xbufOffset + i) j = s.xread (i + j) := by
  unfold State.byteValue
  rw [Nat.add_assoc, inXbuf_add h, hb, Nat.add_sub_cancel_left]
  rfl

/-- A write of one byte of XBUF (20_memory R72). -/
theorem writeByteAt_xbuf {s : State} {i : Nat} (h : i < s.params.maxBytes) (b : Byte) :
    s.writeByteAt (Config.xbufOffset + i) b = s.xwrite i b := by
  unfold State.writeByteAt
  rw [inXbuf_add h, Nat.add_sub_cancel_left]
  rfl

/-- An access of XBUF's byte `i`, by a byte or an aligned word, is no fault when XBUF fits in the window (20_memory R71, R72). -/
theorem accessFault_xbuf {p : Params} {bytes i : Nat} (hm : p.maxBytes ≤ 2 ^ 28) (h : i < p.maxBytes)
    (hs : bytes = 1 ∨ bytes = 4 ∧ i % 4 = 0) : accessFault p bytes (p.base + (Config.xbufOffset + i)) = none := by
  apply accessFault_eq_none
  · unfold Config.xbufOffset
    omega
  · have h4 : Config.xbufOffset % 4 = 0 := by decide
    have hr : Config.registersEnd ≤ Config.xbufOffset := by decide
    rcases hs with rfl | ⟨rfl, hi⟩
    · exact decide_eq_true (by omega)
    · exact decide_eq_true (by omega)

/-! Runs of several steps, for any machine of the host's interface. -/

/-- A run whose first step answers a next state. -/
theorem run_step (M : Host.Core) (n : Nat) {s t : M.State} (h : M.step s = .next t) : M.run (n + 1) s = M.run n t := by
  show (match M.step s with
    | .next s' => M.run n s'
    | .fault r => .fault r
    | .refused r => .refused r) = M.run n t
  rw [h]

/-- Two runs, one after the other. -/
theorem run_append (M : Host.Core) {m n : Nat} {s t u : M.State} (h : M.run m s = .next t) (h' : M.run n t = .next u) :
    M.run (m + n) s = .next u := by
  induction m generalizing s with
  | zero =>
    injection h with h
    rwa [h, Nat.zero_add]
  | succ m ih =>
    rw [Nat.add_right_comm]
    simp only [Host.Core.run] at h ⊢
    split at h
    · exact ih h
    · cases h
    · cases h

/-- Reset leaves every memory in the canonical form. -/
theorem reset_memories_wf : Mem.wf State.reset.xbuf = true ∧ ∀ k : SlotId, Mem.wf (State.reset.slot k).buf = true :=
  ⟨rfl, fun k => by simp [State.slot, State.reset, State.resetWith, Slot.reset, Mem.wf]⟩

end Sys2Proof.Machine
end

