-- ==== Sys2Proof/Tests/Slice0.lean ====
section
/-! SUPPORT. Tests of single steps, with expected values from the spec (95_test_vectors where a section is named), and the
witnesses: for each obligation with hypotheses, a state and operands that meet all of them together. -/

namespace Sys2Proof.Machine

/-! ## Helpers -/

/-- The machine after reset with MAX_BYTES `n`. -/
def small (n : Nat) : State := State.resetWith { nslots := 16, maxBytes := n, base := 0 }

/-- Slot `d` holds these bytes, with size `size`. -/
def State.holding (s : State) (d : SlotId) (size : Nat) (bytes : List Byte) : State :=
  s.setSlot d { valid := true, len := bytes.length, size := size, buf := (List.range bytes.length).zip bytes }

/-- The operand registers. -/
def State.operands (s : State) (a b : Word) : State := { s with a := a, b := b }

/-- The bytes from XBUF[0] on. -/
def State.transfer (s : State) (bytes : List Byte) : State :=
  { s with xbuf := (List.range bytes.length).zip bytes, xlen := BitVec.ofNat 32 bytes.length }

/-- The outcome is a next state with this property. -/
def after (o : Host.Outcome State Fault Refusal) (p : State → Bool) : Bool :=
  match o with
  | .next t => p t
  | .fault _ | .refused _ => false

/-- Slot `d` is valid with this length, size and bytes, and the command completed with OK. -/
def State.okSlot (t : State) (d : SlotId) (size : Nat) (bytes : List Byte) : Bool :=
  decide (t.err = .ok) && (t.slot d).valid && decide ((t.slot d).len = bytes.length) && decide ((t.slot d).size = size) &&
    decide (t.backing d = bytes)

/-- The command completed with OK and this result in R. -/
def State.okResult (t : State) (r : Word) : Bool := decide (t.err = .ok) && decide (t.r = r)

/-- The command completed with this STATUS word and left slot `d` as `s` has it. -/
def State.failed (s t : State) (d : SlotId) (status : Word) : Bool :=
  decide (t.status = status) && decide (t.slot d = s.slot d) && decide (t.r = s.r) && decide (t.xlen = s.xlen)

/-- `newdef` in c0 (95 conventions). -/
def fresh : State := State.reset.holding 0 32 [0x00, 0x00, 0x00, 0x00]

/-- `new 10` in c0. -/
def padded : State := State.reset.holding 0 10 [0x00, 0x00]

/-- c0 = FE 7F 00 00. -/
def ranged : State := State.reset.holding 0 32 [0xFE, 0x7F, 0x00, 0x00]

/-- c1 = CA 0F and c2 = A6 (95 section 6, column (a)). -/
def pair : State := (State.reset.holding 1 16 [0xCA, 0x0F]).holding 2 8 [0xA6]

/-- MAX_BYTES = 8; c0 = 01 with size 1. -/
def one : State := (small 8).holding 0 1 [0x01]

/-- A word in CMD with the engine's step next. -/
def State.running (s : State) (w : Word) : State := { s with cmd := w, busy := true, awaiting := true }

/-! ## WellFormed: one ill-formed term for each check (30_encoding R87) -/

theorem test_wellFormed_accepts : Instr.wellFormed 16 (.and 15 15) = true ∧ Instr.wellFormed 8 (.get 7) = true := by decide
theorem test_wellFormed_refuses_receiver :
    Instr.wellFormed 8 (.get 15) = false ∧ Instr.wellFormed 8 (.new 8) = false ∧ Instr.wellFormed 2 (.and 2 1) = false := by
  decide
theorem test_wellFormed_refuses_other : Instr.wellFormed 8 (.and 0 15) = false ∧ Instr.wellFormed 2 (.clone 0 2) = false := by
  decide

/-! ## Decode: every constructor from a word written out from 30_encoding R86, R94 (95 sections 4 to 8 give the words) -/

theorem test_decode_bit_access :
    decode 16 0x00000010 = .ok (.get 0) ∧ decode 16 0x00010011 = .ok (.set 0 true) ∧
      decode 16 0x00000512 = .ok (.setbo 5 false) ∧ decode 16 0x00000113 = .ok (.getb 1) ∧
      decode 16 0xA5000014 = .ok (.setb 0 0xA5) := by decide
theorem test_decode_range :
    decode 16 0x00010420 = .ok (.setr 4 true) ∧ decode 16 0xFF000521 = .ok (.setrb 5 0xFF) ∧
      decode 16 0x00000622 = .ok (.getrb 6) := by decide
theorem test_decode_logic :
    decode 16 0x00002330 = .ok (.and 3 2) ∧ decode 16 0x00002131 = .ok (.or 1 2) ∧ decode 16 0x00002132 = .ok (.xor 1 2) ∧
      decode 16 0x00002133 = .ok (.nor 1 2) ∧ decode 16 0x00002134 = .ok (.xnor 1 2) ∧
      decode 16 0x00002135 = .ok (.nand 1 2) ∧ decode 16 0x00000136 = .ok (.not 1) := by decide
theorem test_decode_codec :
    decode 16 0x00000201 = .ok (.new 2) ∧ decode 16 0x00000202 = .ok (.ldint 2 .w8) ∧
      decode 16 0x00020102 = .ok (.ldint 1 .w16) ∧ decode 16 0x00040202 = .ok (.ldint 2 .w32) ∧
      decode 16 0x00060002 = .ok (.ldint 0 .w64) ∧ decode 16 0x00000303 = .ok (.ldbytes 3) ∧
      decode 16 0x00001204 = .ok (.clone 2 1) := by decide
theorem test_decode_query : decode 16 0x00000740 = .ok (.getsize 7) ∧ decode 16 0x00000F41 = .ok (.getlen 15) := by decide

/-- 95 section 2: the illegal words, with NSLOTS = 16. -/
theorem test_decode_illegal :
    [0x00000000#32, 0x00010010, 0x00080011, 0x00800011, 0x00100036, 0x00001010, 0xFF000010, 0x80000022, 0x00010030, 0x00070002,
      0x00060003, 0x00000005, 0x00000037, 0x00000042, 0x000000FF].all (fun w => (decode 16 w).toOption.isNone) = true := by decide
/-- 95 section 2: the words that depend on NSLOTS. -/
theorem test_decode_nslots :
    decode 16 0x00000F10 = .ok (.get 15) ∧ decode 8 0x00000F10 = .error .receiverOutOfRange ∧
      decode 16 0x0000F030 = .ok (.and 0 15) ∧ decode 8 0x0000F030 = .error .otherOutOfRange := by decide
theorem test_decodeTableWord : decodeTableWord 32 0x5A000321 = some (.setrb 3 0x5A) ∧ decodeTableWord 32 0 = none := by decide

/-! ## One command each (95 sections 4 to 8) -/

theorem test_get_bit14 : after (exec (.get 0) (ranged.operands 14 0)) (·.okResult 1) = true := by decide
theorem test_get_at_size : after (exec (.get 0) (ranged.operands 32 0)) (State.failed ranged · 0 0x22) = true := by decide
theorem test_set_grows : after (exec (.set 0 true) (fresh.operands 32 0)) (·.okSlot 0 33 [0, 0, 0, 0, 1]) = true := by decide
theorem test_set_capacity :
    after (exec (.set 0 true) (fresh.operands 32768 0)) (State.failed fresh · 0 0x42) = true := by decide
theorem test_setbo_byte2_bit7 :
    after (exec (.setbo 0 true) (fresh.operands 2 7)) (·.okSlot 0 32 [0, 0, 0x80, 0]) = true := by decide
theorem test_setbo_offset_8 :
    after (exec (.setbo 0 true) (fresh.operands 3 8)) (State.failed fresh · 0 0x12) = true := by decide
theorem test_getb_not_sign_extended :
    after (exec (.getb 0) (State.reset.holding 0 8 [0x80])) (·.okResult 0x80) = true := by decide
theorem test_getb_negative : after (exec (.getb 0) (ranged.operands (-1) 0)) (State.failed ranged · 0 0x12) = true := by decide
theorem test_setb_grows :
    after (exec (.setb 0 0xA5) (fresh.operands 5 0)) (·.okSlot 0 48 [0, 0, 0, 0, 0, 0xA5]) = true := by decide
theorem test_setb_size_inside_len :
    after (exec (.setb 0 0x00) (padded.operands 1 0)) (·.okSlot 0 16 [0, 0]) = true := by decide
theorem test_setr_masks_and_interior :
    after (exec (.setr 0 true) (fresh.operands 4 28)) (·.okSlot 0 32 [0xF0, 0xFF, 0xFF, 0x0F]) = true := by decide
theorem test_setr_zero_grows :
    after (exec (.setr 0 false) (fresh.operands 36 37)) (·.okSlot 0 37 [0, 0, 0, 0, 0]) = true := by decide
theorem test_setrb_fills :
    after (exec (.setrb 0 0x5A) (fresh.operands 2 6)) (·.okSlot 0 48 [0, 0, 0x5A, 0x5A, 0x5A, 0x5A]) = true := by decide
theorem test_setrb_capacity :
    after (exec (.setrb 0 0x01) (fresh.operands 3 4097)) (State.failed fresh · 0 0x42) = true := by decide
theorem test_getrb_copies :
    after (exec (.getrb 0) (ranged.operands 0 2)) (fun t => t.xread 0 == 0xFE && t.xread 1 == 0x7F && t.xlen == 2) = true := by
  decide
theorem test_getrb_beyond : after (exec (.getrb 0) (ranged.operands 3 5)) (State.failed ranged · 0 0x22) = true := by decide
theorem test_and_shorter : after (exec (.and 1 2) pair) (·.okSlot 1 16 [0x82, 0x00]) = true := by decide
theorem test_or_longer : after (exec (.or 2 1) pair) (·.okSlot 2 8 [0xEE]) = true := by decide
theorem test_xor_shorter : after (exec (.xor 1 2) pair) (·.okSlot 1 16 [0x6C, 0x0F]) = true := by decide
theorem test_xor_self : after (exec (.xor 1 1) pair) (·.okSlot 1 16 [0x00, 0x00]) = true := by decide
theorem test_nor_shorter : after (exec (.nor 1 2) pair) (·.okSlot 1 16 [0x11, 0xF0]) = true := by decide
theorem test_nor_padding :
    after (exec (.nor 0 2) (padded.holding 2 8 [0x01])) (·.okSlot 0 10 [0xFE, 0xFF]) = true := by decide
theorem test_xnor_shorter : after (exec (.xnor 1 2) pair) (·.okSlot 1 16 [0x93, 0xF0]) = true := by decide
theorem test_xnor_self : after (exec (.xnor 1 1) pair) (·.okSlot 1 16 [0xFF, 0xFF]) = true := by decide
theorem test_nand_shorter : after (exec (.nand 1 2) pair) (·.okSlot 1 16 [0x7D, 0xFF]) = true := by decide
theorem test_nand_invalid_other : after (exec (.nand 1 3) pair) (State.failed pair · 1 0x52) = true := by decide
theorem test_not_padding : after (exec (.not 0) padded) (·.okSlot 0 10 [0xFF, 0xFF]) = true := by decide
theorem test_not_invalid : after (exec (.not 4) pair) (State.failed pair · 4 0x52) = true := by decide
theorem test_new_replaces :
    after (exec (.new 2) ((State.reset.holding 2 16 [0x0F, 0xF0]).operands 4 0)) (·.okSlot 2 4 [0x00]) = true := by decide
theorem test_new_negative : after (exec (.new 2) (pair.operands (-4) 0)) (State.failed pair · 2 0x12) = true := by decide
theorem test_ldint_w64 :
    after (exec (.ldint 2 .w64) (State.reset.operands 0x89ABCDEF 0x01234567))
      (·.okSlot 2 64 [0xEF, 0xCD, 0xAB, 0x89, 0x67, 0x45, 0x23, 0x01]) = true := by decide
theorem test_ldint_w8_ignores_high_bits :
    after (exec (.ldint 2 .w8) (State.reset.operands 0x1234 0xDEADBEEF)) (·.okSlot 2 8 [0x34]) = true := by decide
theorem test_ldbytes_order :
    after (exec (.ldbytes 2) (State.reset.transfer [0x0F, 0xF0])) (·.okSlot 2 16 [0x0F, 0xF0]) = true := by decide
theorem test_ldbytes_capacity :
    after (exec (.ldbytes 2) { State.reset with xlen := 4097 })
      (State.failed { State.reset with xlen := 4097 } · 2 0x42) = true := by decide
theorem test_clone_copies : after (exec (.clone 3 1) pair) (fun t => t.okSlot 3 16 [0xCA, 0x0F] && t.okSlot 1 16 [0xCA, 0x0F]) = true := by
  decide
theorem test_clone_self_invalid : after (exec (.clone 3 3) pair) (State.failed pair · 3 0x52) = true := by decide
theorem test_getsize_padding_not_counted : after (exec (.getsize 0) padded) (·.okResult 10) = true := by decide
theorem test_getsize_invalid : after (exec (.getsize 7) padded) (State.failed padded · 7 0x52) = true := by decide
theorem test_getlen : after (exec (.getlen 0) padded) (·.okResult 2) = true := by decide

/-! ## STATUS, priority, the host bus and the reset input (95 section 9) -/

/-- 95 section 9: an illegal word completes with IllegalCommand before the slot is looked at. -/
theorem test_illegal_before_noContainer :
    after (step (State.reset.withFetchWord 32 0x00010310)) (fun t => t.status == 0x32 && t.slot 3 == Slot.reset) = true := by decide
/-- 95 section 9: NoContainer before InvalidArgument. -/
theorem test_noContainer_before_invalidArgument :
    after (exec (.get 3) (State.reset.operands (-1) 0)) (·.status == 0x52) = true := by decide
/-- 95 section 9: a successful command keeps ERRSEEN. -/
theorem test_errSeen_stays :
    after (exec (.getlen 0) { padded with errSeen := true, err := .noContainer }) (·.status == 0x02) = true := by decide
/-- 95 section 9: InvalidArgument before CapacityExceeded. -/
theorem test_invalidArgument_before_capacity :
    after (exec (.setr 0 true) (fresh.operands (-1) 40000)) (·.status == 0x12) = true := by decide

/-- A state whose host makes one access. -/
def State.doing (s : State) (act : HostAct) : State := { s with host := [act] }

theorem test_bus_xbuf_word_write :
    after (step (State.reset.doing (.write 4 0x10000000 0x04030201)))
      (fun t => [0, 1, 2, 3].map t.xread == [0x01, 0x02, 0x03, 0x04]) = true := by decide
theorem test_bus_xbuf_word_read :
    after (step ((State.reset.transfer [1, 2, 3, 4]).doing (.read 4 0x10000000))) (·.busData == 0x04030201) = true := by decide
theorem test_bus_reserved_reads_zero : after (step (State.reset.doing (.read 4 0x020))) (·.busData == 0) = true := by decide
theorem test_bus_params :
    after (step (State.reset.doing (.read 4 0x018))) (·.busData == 16) = true ∧
      after (step (State.reset.doing (.read 4 0x01C))) (·.busData == 4096) = true := by decide
theorem test_bus_halfword_faults : (match step (State.reset.doing (.read 2 0x004)) with
    | .fault .hostAccessShape => true
    | _ => false) = true := by decide
/-- Program P6: the third line faults. -/
theorem test_write_while_busy_faults :
    (match step ({ State.reset with busy := true, awaiting := true, lat := 1 }.doing (.write 4 0x004 16)) with
    | .fault .hostWriteWhileBusy => true
    | _ => false) = true := by decide
theorem test_reset_abandons :
    after (step ({ padded with busy := true, awaiting := true, lat := 1 }.doing .assertReset))
      (fun t => t.status == 0 && t.slot 0 == Slot.reset && t.resetLine) = true := by decide

/-- 20_memory R72: a byte write takes the low byte of its data and leaves the neighbours. -/
theorem test_bus_xbuf_byte_write :
    after (step ((State.reset.transfer [1, 2, 3]).doing (.write 1 0x10000001 0x1A5)))
      (fun t => [0, 1, 2].map t.xread == [0x01, 0xA5, 0x03]) = true := by decide
theorem test_bus_xbuf_byte_read :
    after (step ((State.reset.transfer [1, 0xF0]).doing (.read 1 0x10000001))) (·.busData == 0xF0) = true := by decide
/-- 20_memory R76: the STATUS read that returns BUSY = 0 is the host's sight of the end. -/
theorem test_bus_status_read_ends_wait :
    after (step ({ State.reset with awaiting := true }.doing (.read 4 0x010))) (fun t => !t.awaiting) = true ∧
      after (step ({ State.reset with awaiting := true }.doing (.read 4 0x00C))) (·.awaiting) = true := by decide

/-! ## Text forms (95 section 7) and assembly text (30_encoding R99) -/

theorem test_parse_two_bytes :
    parse "11110000 00001111".toList = .ok { size := 16, bytes := [0x0F, 0xF0] } ∧
      parse "1\t0".toList = .ok { size := 2, bytes := [0x02] } := by decide
theorem test_parse_rejects :
    parse "10 2".toList = .error .invalidArgument ∧ parse "1_0".toList = .error .invalidArgument := by decide
theorem test_parse_empty : parse [] = .ok { size := 0, bytes := [] } ∧ parse " \t\n".toList = .ok { size := 0, bytes := [] } := by
  decide
theorem test_render : render [0xFE, 0x7F, 0x00, 0x00] = "00000000 00000000 01111111 11111110".toList ∧ render [] = [] := by decide
theorem test_asm : asmText (.setb 0 0xA5) = "SETB c0, #0xA5" ∧ asmText (.ldint 1 .w16) = "LDINT.16 c1" := by decide
/-- 43_codec R179: GETRB with A = 0 and B = len, and no line for an empty slot. -/
theorem test_slice_lines :
    sliceLines 5 4 = [.wrA 0, .wrB 4, .cmd (.getrb 5)] ∧ sliceLines 5 0 = [] ∧
      (State.reset.withLengthRead 5).host = [.write 4 0x000 0x00000541, .waitIdle, .read 4 0x00C] := by decide
/-- 70_reset R238: a host line after the last command line issues nothing; a write of CMD does. -/
theorem test_issues :
    (HostAct.write 4 0x004 5).issues State.reset.params = false ∧ (HostAct.write 4 0x000 5).issues State.reset.params = true := by
  decide
/-- 70_reset R238: what sees BUSY = 0 is a read of STATUS, not a reset. -/
theorem test_seesIdle :
    (State.reset.doing .waitIdle).seesIdle = true ∧ (State.reset.doing (.read 4 0x010)).seesIdle = true ∧
      (State.reset.doing .assertReset).seesIdle = false ∧ ((one.running 0x10).doing .waitIdle).seesIdle = false := by decide
/-- Program P5: `ldbin c6, "111000 10100101"` expands to NEW and one SETR for each run. -/
theorem test_ldbin_runs :
    runsFrom (bitsOf (digitsOf "111000 10100101".toList)) 0 none = [(0, 1), (2, 3), (5, 6), (7, 8), (11, 14)] := by decide

/-- 43_codec R180 (a): HLBA's example, "111000 10100101" to "00111000 10100101". -/
theorem test_regroup : regroup "11100010100101".toList = ["00111000".toList, "10100101".toList] ∧ regroup [] = [] := by decide

/-! ## Witnesses: encoding and the engine's step -/

theorem witness_DecodeReadsBackEveryEncoding : Instr.wellFormed 2 (.and 1 1) = true ∧ Instr.wellFormed 16 (.setb 15 0xFF) = true := by
  decide
theorem witness_EveryDecodedWordIsItsEncoding : decode 2 0x00000110 = .ok (.get 1) := by decide
theorem witness_IllegalWords_opcode :
    EngineNext (one.running 0x000000FF) ∧
      ((one.running 0x000000FF).cmd.extractLsb' 0 8).toNat ∈ [0x00] ++ List.range' 0x05 11 ++ List.range' 0x15 11 ++
        List.range' 0x23 13 ++ List.range' 0x37 9 ++ List.range' 0x42 190 := ⟨⟨rfl, rfl, rfl⟩, by decide⟩
theorem witness_IllegalWords_reserved :
    EngineNext (one.running 0x00080011) ∧ (one.running 0x00080011).cmd.extractLsb' 19 5 ≠ 0 := ⟨⟨rfl, rfl, rfl⟩, by decide⟩
/-- A machine with two slots. -/
def twoSlots : State := State.resetWith { nslots := 2, maxBytes := 8, base := 0 }
theorem witness_IllegalWords_receiver :
    EngineNext (twoSlots.running 0x00000210) ∧
      (twoSlots.running 0x00000210).params.nslots ≤ ((twoSlots.running 0x00000210).cmd.extractLsb' 8 4).toNat :=
  ⟨⟨rfl, rfl, rfl⟩, by decide⟩
theorem witness_IllegalWords_other :
    EngineNext (one.running 0x00010010) ∧
      ∃ r, decode (one.running 0x00010010).params.nslots (one.running 0x00010010).cmd = .error r :=
  ⟨⟨rfl, rfl, rfl⟩, .unusedNonzero, by decide⟩
theorem witness_StepRunsTheDecodedCommand :
    EngineNext (one.running 0x00000010) ∧
      decode (one.running 0x00000010).params.nslots (one.running 0x00000010).cmd = .ok (.get 0) := ⟨⟨rfl, rfl, rfl⟩, by decide⟩
theorem witness_PlacedWordRunsNext : State.reset.params.nslots = 16 ∧ decodeTableWord 32 0x00000010 = some (.get 0) := by decide
theorem witness_FailedCommandsChangeOnlyStatus :
    reportedCode (.get 1) one = .noContainer ∧ reportedCode (.get 0) (one.operands (-1) 0) = .invalidArgument ∧
      reportedCode (.get 0) (one.operands 1 0) = .outOfRange ∧
      reportedCode (.set 0 true) (one.operands 64 0) = .capacityExceeded := by decide
theorem witness_EveryCommandCompletes_ok : reportedCode (.set 0 true) (one.operands 63 0) = .ok := by decide
theorem witness_RunningCommandEnds :
    (one.running 0x10).resetLine = false ∧ (one.running 0x10).busy = true ∧ (one.running 0x10).host = [] ∧
      ∃ rest, { one.running 0x10 with host := [.waitIdle] }.host = .waitIdle :: rest := ⟨rfl, rfl, rfl, [], rfl⟩

/-! ## Witnesses: bit and byte access, at the ends of each clause's range -/

theorem witness_GetReadsOneBit_ok :
    (one.slot 0).valid = true ∧ 0 ≤ sint32 (one.operands 0 0).a ∧ sint32 (one.operands 0 0).a < ((one.operands 0 0).slot 0).size := by
  decide
theorem witness_invalid_slot : (one.slot 1).valid = false ∧ (one.slot 15).valid = false := by decide
theorem witness_GetReadsOneBit_errors :
    (one.slot 0).valid = true ∧ sint32 (one.operands (-1) 0).a < 0 ∧ sint32 (one.operands 0x80000000 0).a < 0 ∧
      0 ≤ sint32 (one.operands 1 0).a ∧ ((one.operands 1 0).slot 0).size ≤ sint32 (one.operands 1 0).a := by decide
theorem witness_SetWritesOneBit_ok :
    (one.slot 0).valid = true ∧ 0 ≤ sint32 (one.operands 63 0).a ∧
      sint32 (one.operands 63 0).a / 8 + 1 ≤ (one.operands 63 0).params.maxBytes := by decide
theorem witness_SetWritesOneBit_errors :
    (one.slot 0).valid = true ∧ sint32 (one.operands (-1) 0).a < 0 ∧ 0 ≤ sint32 (one.operands 64 0).a ∧
      (one.operands 64 0).params.maxBytes < sint32 (one.operands 64 0).a / 8 + 1 := by decide
theorem witness_SetboWritesOneBit_ok :
    (one.slot 0).valid = true ∧ 0 ≤ sint32 (one.operands 7 7).a ∧ 0 ≤ sint32 (one.operands 7 7).b ∧
      sint32 (one.operands 7 7).b ≤ 7 ∧ sint32 (one.operands 7 7).a + 1 ≤ (one.operands 7 7).params.maxBytes := by decide
theorem witness_SetboWritesOneBit_errors :
    (one.slot 0).valid = true ∧ sint32 (one.operands (-1) 0).a < 0 ∧ sint32 (one.operands 0 (-1)).b < 0 ∧
      7 < sint32 (one.operands 0 8).b ∧ 0 ≤ sint32 (one.operands 8 0).a ∧ sint32 (one.operands 8 0).b ≤ 7 ∧
      (one.operands 8 0).params.maxBytes < sint32 (one.operands 8 0).a + 1 := by decide
theorem witness_SetboIsSetAtItsPosition :
    0 ≤ sint32 (one.operands 7 7).a ∧ 0 ≤ sint32 (one.operands 7 7).b ∧ sint32 (one.operands 7 7).b ≤ 7 ∧
      sint32 63 = 8 * sint32 (one.operands 7 7).a + sint32 (one.operands 7 7).b ∧
      ∃ t, exec (.setbo 0 true) (one.operands 7 7) = .next t := ⟨by decide, by decide, by decide, by decide, _, rfl⟩
theorem witness_GetbReadsOneByte :
    (one.slot 0).valid = true ∧ 0 ≤ sint32 (one.operands 0 0).a ∧ sint32 (one.operands 0 0).a < ((one.operands 0 0).slot 0).len ∧
      sint32 (one.operands (-1) 0).a < 0 ∧ ((one.operands 1 0).slot 0).len ≤ sint32 (one.operands 1 0).a := by decide
theorem witness_SetbWritesOneByte :
    (one.slot 0).valid = true ∧ 0 ≤ sint32 (one.operands 7 0).a ∧
      sint32 (one.operands 7 0).a + 1 ≤ (one.operands 7 0).params.maxBytes ∧ sint32 (one.operands (-1) 0).a < 0 ∧
      0 ≤ sint32 (one.operands 8 0).a ∧ (one.operands 8 0).params.maxBytes < sint32 (one.operands 8 0).a + 1 := by decide
theorem witness_SetThenGetReadsTheValue :
    (one.slot 0).valid = true ∧ 0 ≤ sint32 (one.operands 63 0).a ∧
      sint32 (one.operands 63 0).a / 8 < (one.operands 63 0).params.maxBytes := by decide
theorem witness_GetAgreesWithGetb :
    (padded.operands 9 0).Inv ∧ ((padded.operands 9 0).slot 0).valid = true ∧ 0 ≤ sint32 (padded.operands 9 0).a ∧
      sint32 (padded.operands 9 0).a < ((padded.operands 9 0).slot 0).size ∧ sint32 1 = sint32 (padded.operands 9 0).a / 8 := by
  decide

/-! ## Witnesses: ranges -/

theorem witness_SetrWritesTheRange_ok :
    (one.slot 0).valid = true ∧ 0 ≤ sint32 (one.operands 0 64).a ∧ sint32 (one.operands 0 64).a < sint32 (one.operands 0 64).b ∧
      (sint32 (one.operands 0 64).b - 1) / 8 + 1 ≤ (one.operands 0 64).params.maxBytes := by decide
theorem witness_SetrWritesTheRange_errors :
    (one.slot 0).valid = true ∧ sint32 (one.operands (-1) 3).a < 0 ∧ sint32 (one.operands 5 5).b ≤ sint32 (one.operands 5 5).a ∧
      0 ≤ sint32 (one.operands 0 65).a ∧ sint32 (one.operands 0 65).a < sint32 (one.operands 0 65).b ∧
      (one.operands 0 65).params.maxBytes < (sint32 (one.operands 0 65).b - 1) / 8 + 1 := by decide
theorem witness_SetrIsTheSetsOfItsPositions :
    (one.operands 3 12).Inv ∧ ((one.operands 3 12).slot 0).valid = true ∧ 0 ≤ sint32 (one.operands 3 12).a ∧
      sint32 (one.operands 3 12).a < sint32 (one.operands 3 12).b ∧
      (sint32 (one.operands 3 12).b - 1) / 8 + 1 ≤ (one.operands 3 12).params.maxBytes ∧
      ∃ t, exec (.setr 0 true) (one.operands 3 12) = .next t :=
  ⟨by decide, by decide, by decide, by decide, by decide, _, rfl⟩
theorem witness_SetrbFillsTheBytes :
    (one.slot 0).valid = true ∧ 0 ≤ sint32 (one.operands 7 8).a ∧ sint32 (one.operands 7 8).a < sint32 (one.operands 7 8).b ∧
      sint32 (one.operands 7 8).b ≤ (one.operands 7 8).params.maxBytes ∧ sint32 (one.operands (-1) 3).a < 0 ∧
      sint32 (one.operands 5 5).b ≤ sint32 (one.operands 5 5).a ∧ 0 ≤ sint32 (one.operands 0 9).a ∧
      sint32 (one.operands 0 9).a < sint32 (one.operands 0 9).b ∧
      (one.operands 0 9).params.maxBytes < sint32 (one.operands 0 9).b := by decide
theorem witness_GetrbCopiesTheSlice :
    (one.slot 0).valid = true ∧ 0 ≤ sint32 (one.operands 0 1).a ∧ sint32 (one.operands 0 1).a < sint32 (one.operands 0 1).b ∧
      sint32 (one.operands 0 1).b ≤ ((one.operands 0 1).slot 0).len ∧ sint32 (one.operands (-1) 1).a < 0 ∧
      sint32 (one.operands 2 2).b ≤ sint32 (one.operands 2 2).a ∧ sint32 (one.operands 1 2).a < sint32 (one.operands 1 2).b ∧
      ((one.operands 1 2).slot 0).len < sint32 (one.operands 1 2).b := by decide

/-! ## Witnesses: logic, constructors, queries -/

theorem witness_BinaryLogicFollowsTheTruthTables :
    binaryKinds.length = 6 ∧ (pair.slot 1).valid = true ∧ (pair.slot 2).valid = true ∧ (pair.slot 3).valid = false ∧
      (pair.slot 2).len < (pair.slot 1).len := by decide
theorem witness_NotComplementsEveryBackingByte : (padded.slot 0).valid = true ∧ (padded.slot 4).valid = false := by decide
theorem witness_NotTwiceRestores : (padded.slot 0).valid = true ∧ 0 < (padded.slot 0).len := by decide
theorem witness_LogicOfASlotWithItself : padded.Inv ∧ (padded.slot 0).valid = true := by decide
theorem witness_NewConstructsZeros :
    0 ≤ sint32 (one.operands 64 0).a ∧ (sint32 (one.operands 64 0).a + 7) / 8 ≤ (one.operands 64 0).params.maxBytes ∧
      sint32 (one.operands (-1) 0).a < 0 ∧ 0 ≤ sint32 (one.operands 65 0).a ∧
      (one.operands 65 0).params.maxBytes < (sint32 (one.operands 65 0).a + 7) / 8 := by decide
theorem witness_LdbytesLoadsXbuf :
    { one with xlen := 8 }.xlen.toNat ≤ { one with xlen := 8 }.params.maxBytes ∧
      { one with xlen := 9 }.params.maxBytes < { one with xlen := 9 }.xlen.toNat := by decide
theorem witness_CloneCopiesTheContainer :
    (pair.slot 1).valid = true ∧ (3 : SlotId) ≠ 1 ∧ (pair.slot 3).valid = false := by decide
theorem witness_QueriesReadSizeAndLength : padded.Inv ∧ (padded.slot 0).valid = true ∧ (padded.slot 7).valid = false := by decide

/-! ## Witnesses: what no command does -/

theorem witness_EngineNeverWritesOperandRegisters :
    (∃ t, exec (.setr 0 true) (one.operands 0 64) = .next t) ∧ ∃ t, exec (.get 1) one = .next t := ⟨⟨_, rfl⟩, ⟨_, rfl⟩⟩
theorem witness_ResultRegisterWriters :
    (∃ t, exec (.get 1) one = .next t ∧ t.err ≠ .ok) ∧
      ∃ t, exec (.set 0 true) one = .next t ∧ (Instr.set 0 true ≠ .get 0 ∧ Instr.set 0 true ≠ .getb 0 ∧
        Instr.set 0 true ≠ .getsize 0 ∧ Instr.set 0 true ≠ .getlen 0) :=
  ⟨⟨_, rfl, by decide⟩, ⟨_, rfl, by decide⟩⟩
theorem witness_TransferBufferWriters :
    (∃ t, exec (.getrb 1) one = .next t ∧ t.err ≠ .ok) ∧
      ∃ t, exec (.ldbytes 0) one = .next t ∧ Instr.ldbytes 0 ≠ .getrb (Instr.ldbytes 0).receiver :=
  ⟨⟨_, rfl, by decide⟩, ⟨_, rfl, by decide⟩⟩
theorem witness_OtherSlotsAreUntouched : ∃ t, exec (.not 1) pair = .next t ∧ (2 : SlotId) ≠ (Instr.not 1).receiver :=
  ⟨_, rfl, by decide⟩
theorem witness_LengthsNeverShrink :
    (∃ t, exec (.set 0 true) (one.operands 63 0) = .next t ∧ (Instr.set 0 true).isConstructor = false) ∧
      ∃ t, exec (.new 0) one = .next t ∧ (Instr.new 0).isConstructor = true ∧ (1 : SlotId) ≠ (Instr.new 0).receiver :=
  ⟨⟨_, rfl, rfl⟩, ⟨_, rfl, rfl, by decide⟩⟩
theorem witness_RepeatedCommandsChangeNothing :
    (one.operands 3 12).Inv ∧ repeatable (.setr 0 true) = true ∧ ∃ t, exec (.setr 0 true) (one.operands 3 12) = .next t :=
  ⟨by decide, rfl, _, rfl⟩
theorem witness_UnusedOperandsDoNotMatter :
    (∃ t, exec (.and 1 2) pair = .next t) ∧ readsA (.and 1 2) = false ∧ readsB (.and 1 2) = false ∧
      (∃ t, exec (.ldint 1 .w32) pair = .next t) ∧ readsB (.ldint 1 .w32) = false := ⟨⟨_, rfl⟩, rfl, rfl, ⟨_, rfl⟩, rfl⟩

/-! ## Witnesses: STATUS, reset and the invariant -/

theorem witness_ErrSeenIsSticky : (∃ t, step { one with errSeen := true } = .next t) ∧ { one with errSeen := true }.errSeen = true :=
  ⟨⟨_, rfl⟩, rfl⟩
theorem witness_ResetAtAnyTime : HostNext ({ one.running 0x10 with lat := 1 }.doing .assertReset) .assertReset [] :=
  ⟨rfl, .inr (.inr (by decide))⟩
theorem witness_ResetHoldsTheState :
    (State.reset.assertReset.doing .releaseReset).Inv ∧ (State.reset.assertReset.doing .releaseReset).resetLine = true ∧
      ∃ t, step (State.reset.assertReset.doing .releaseReset) = .next t := ⟨by decide, rfl, _, rfl⟩
theorem witness_ResetHoldsTheState_release : HostNext (State.reset.assertReset.doing .releaseReset) .releaseReset [] :=
  ⟨rfl, .inl rfl⟩
theorem witness_EveryStepKeepsTheInvariant :
    ((one.operands 63 0).running 0x00010011).Inv ∧ ∃ t, step ((one.operands 63 0).running 0x00010011) = .next t :=
  ⟨by decide, _, rfl⟩
theorem witness_ResetMeetsTheInvariant :
    Params.wf { nslots := 2, maxBytes := 8, base := 0 } ∧ Params.wf { nslots := 16, maxBytes := 2 ^ 28, base := 0x40000000 } := by
  decide

/-! ## Witnesses: the host interface -/

theorem witness_CmdWriteStartsTheCommand : IdleNext (one.doing (.write 4 0 0x10)) (.write 4 (one.params.base) 0x10) [] :=
  ⟨rfl, rfl, rfl, rfl⟩
theorem witness_OperandWrites :
    IdleNext (one.doing (.write 4 0x004 5)) (.write 4 (one.params.base + 0x004) 5) [] ∧
      IdleNext (one.doing (.write 4 0x008 5)) (.write 4 (one.params.base + 0x008) 5) [] ∧
      IdleNext (one.doing (.write 4 0x014 5)) (.write 4 (one.params.base + 0x014) 5) [] :=
  ⟨⟨rfl, rfl, rfl, rfl⟩, ⟨rfl, rfl, rfl, rfl⟩, ⟨rfl, rfl, rfl, rfl⟩⟩
theorem witness_ReadOnlyRegistersIgnoreWrites :
    0x010 ∈ [0x00C, 0x010, 0x018, 0x01C] ∧
      HostNext (one.doing (.write 4 0x010 5)) (.write 4 ((one.doing (.write 4 0x010 5)).params.base + 0x010) 5) [] :=
  ⟨by decide, rfl, .inr (.inl rfl)⟩
theorem witness_RegisterReads :
    ({ one with awaiting := true }.doing (.read 4 0x010)).host = .read 4 (one.params.base + 0x010) :: [] ∧
      ({ one with awaiting := true }.doing (.read 4 0x010)).busy = false ∧
      (one.doing (.read 4 0x00C)).host = .read 4 (one.params.base + 0x00C) :: [] ∧ (one.doing (.read 4 0x00C)).busy = false :=
  ⟨rfl, rfl, rfl, rfl⟩
theorem witness_DefinedReadsWhileBusy :
    HostNext ({ one.running 0x10 with lat := 1 }.doing (.read 4 0x010)) (.read 4 (one.params.base + 0x010)) [] ∧
      HostNext ({ one.running 0x10 with lat := 1 }.doing (.read 1 0x10000007)) (.read 1 (one.params.base + 0x10000007)) [] ∧
      ({ one.running 0x10 with lat := 1 }.doing (.read 4 0x010)).resetLine = false ∧
      ({ one.running 0x10 with lat := 1 }.doing (.read 4 0x010)).busy = true ∧ 0x010 % 4 = 0 ∧ 0x20 ≤ 0x10000007 ∧
      0x10000007 < 0x20000000 :=
  ⟨⟨rfl, .inr (.inr (by decide))⟩, ⟨rfl, .inr (.inr (by decide))⟩, rfl, rfl, by decide, by decide, by decide⟩
/-- Both reserved ranges at their ends, by bytes and by words. -/
theorem witness_ReservedOffsets :
    (∀ off ∈ [0x20, 0x0FFFFFFF, 0x10000008, 0x1FFFFFFF],
      (0x20 ≤ off ∧ off < 0x10000000) ∨ (0x10000000 + one.params.maxBytes ≤ off ∧ off < 0x20000000)) ∧
      0x1FFFFFFC % 4 = 0 ∧
      HostNext (one.doing (.read 1 0x0FFFFFFF)) (.read 1 (one.params.base + 0x0FFFFFFF)) [] ∧
      HostNext (one.doing (.read 4 0x1FFFFFFC)) (.read 4 (one.params.base + 0x1FFFFFFC)) [] ∧
      HostNext (one.doing (.write 4 0x20 5)) (.write 4 (one.params.base + 0x20) 5) [] ∧
      HostNext (one.doing (.write 1 0x10000008 5)) (.write 1 (one.params.base + 0x10000008) 5) [] :=
  ⟨by decide, by decide, ⟨rfl, .inr (.inl rfl)⟩, ⟨rfl, .inr (.inl rfl)⟩, ⟨rfl, .inr (.inl rfl)⟩, ⟨rfl, .inr (.inl rfl)⟩⟩
theorem witness_WrongShapesFault :
    (2 ≠ 1 ∧ 2 ≠ 4) ∧ 0x10000001 % 4 ≠ 0 ∧ 0x1F < 0x20 ∧
      HostNext (one.doing (.read 2 0x004)) (.read 2 (one.params.base + 0x004)) [] ∧
      HostNext (one.doing (.write 4 0x10000001 5)) (.write 4 (one.params.base + 0x10000001) 5) [] ∧
      HostNext (one.doing (.write 1 0x1F 5)) (.write 1 (one.params.base + 0x1F) 5) [] :=
  ⟨by decide, by decide, by decide, ⟨rfl, .inr (.inl rfl)⟩, ⟨rfl, .inr (.inl rfl)⟩, ⟨rfl, .inr (.inl rfl)⟩⟩
theorem witness_WritesWhileBusyFault_running :
    HostNext ({ one.running 0x10 with lat := 1 }.doing (.write 4 0x000 5)) (.write 4 (one.params.base + 0x000) 5) [] ∧
      ({ one.running 0x10 with lat := 1 }.doing (.write 4 0x000 5)).resetLine = false ∧
      ({ one.running 0x10 with lat := 1 }.doing (.write 4 0x000 5)).busy = true ∧ one.params.maxBytes ≤ 2 ^ 28 ∧
      0x000 ∈ [0x000, 0x004, 0x008, 0x014] := ⟨⟨rfl, .inr (.inr (by decide))⟩, rfl, rfl, by decide, by decide⟩
theorem witness_WritesWhileBusyFault_unseen :
    HostNext ({ one with awaiting := true }.doing (.write 1 0x10000007 5)) (.write 1 (one.params.base + 0x10000007) 5) [] ∧
      ({ one with awaiting := true }.doing (.write 1 0x10000007 5)).resetLine = false ∧
      ({ one with awaiting := true }.doing (.write 1 0x10000007 5)).awaiting = true ∧ one.params.maxBytes ≤ 2 ^ 28 ∧
      0x10000000 ≤ 0x10000007 ∧ 0x10000007 < 0x10000000 + one.params.maxBytes :=
  ⟨⟨rfl, .inr (.inl rfl)⟩, rfl, rfl, by decide, by decide, by decide⟩
theorem witness_XbufWordsAreLittleEndian :
    one.params.maxBytes ≤ 2 ^ 28 ∧ 4 * 1 + 3 < one.params.maxBytes ∧
      IdleNext { one with host := [.write 4 0x10000004 0x04030201, .read 4 0x10000004] }
        (.write 4 (one.params.base + 0x10000000 + 4 * 1) 0x04030201) [.read 4 (one.params.base + 0x10000000 + 4 * 1)] :=
  ⟨by decide, by decide, rfl, rfl, rfl, rfl⟩
/-- XBUF's last byte, and reads before the host has seen the end of the last command. -/
theorem witness_XbufWordsAreLittleEndian_bytes_and_reads :
    7 < one.params.maxBytes ∧
      IdleNext (one.doing (.write 1 0x10000007 0x1FF)) (.write 1 (one.params.base + 0x10000000 + 7) 0x1FF) [] ∧
      ({ one with awaiting := true }.doing (.read 4 0x10000004)).host = .read 4 (one.params.base + 0x10000000 + 4 * 1) :: [] ∧
      ({ one with awaiting := true }.doing (.read 1 0x10000007)).host = .read 1 (one.params.base + 0x10000000 + 7) :: [] ∧
      ({ one with awaiting := true }.doing (.read 1 0x10000007)).busy = false :=
  ⟨by decide, ⟨rfl, rfl, rfl, rfl⟩, rfl, rfl, rfl⟩
theorem witness_WaitEndsWhenIdle :
    (HostNext (one.doing .waitIdle) .waitIdle [] ∧ (one.doing .waitIdle).resetLine = false ∧ (one.doing .waitIdle).busy = false) ∧
      HostNext ({ one.running 0x10 with lat := 1 }.doing .waitIdle) .waitIdle [] ∧
      ({ one.running 0x10 with lat := 1 }.doing .waitIdle).resetLine = false ∧
      ({ one.running 0x10 with lat := 1 }.doing .waitIdle).busy = true :=
  ⟨⟨⟨rfl, .inr (.inl rfl)⟩, rfl, rfl⟩, ⟨rfl, .inr (.inr (by decide))⟩, rfl, rfl⟩
theorem witness_IdleKeepsAllState : one.busy = false ∧ one.host = [] := ⟨rfl, rfl⟩

theorem witness_CommandLineRunsTheCommand :
    Instr.wellFormed ((one.operands 63 0).withProgram [.cmd (.set 0 true)]).params.nslots (.set 0 true) = true ∧
      ((one.operands 63 0).withProgram [.cmd (.set 0 true)]).resetLine = false ∧
      ((one.operands 63 0).withProgram [.cmd (.set 0 true)]).busy = false ∧
      ((one.operands 63 0).withProgram [.cmd (.set 0 true)]).awaiting = false ∧
      ((one.operands 63 0).withProgram [.cmd (.set 0 true)]).host = Line.acts one.params (.cmd (.set 0 true)) ++ [] :=
  ⟨by decide, rfl, rfl, rfl, rfl⟩

/-- A host line is left after the command line, and no command. -/
theorem witness_CommandLineRunsTheCommand_end :
    (Line.acts one.params (.wrA 5)).all (fun act => !act.issues one.params) = true := by decide

/-! ## Witnesses: the text forms -/

theorem witness_ParserReadsDigits_accepts : ∀ c ∈ ['1', ' ', '0'], c = '0' ∨ c = '1' ∨ isSpace c = true := by simp [isSpace]
theorem witness_ParserReadsDigits_rejects : ∃ c ∈ "10 2".toList, c ≠ '0' ∧ c ≠ '1' ∧ isSpace c = false := ⟨'2', by decide⟩
/-- A slot with bytes and an empty one. -/
theorem witness_ParseAfterRenderRestores :
    (one.holding 1 0 []).Inv ∧ ((one.holding 1 0 []).slot 0).valid = true ∧ 0 < ((one.holding 1 0 []).slot 0).len ∧
      ((one.holding 1 0 []).slot 1).valid = true ∧ ((one.holding 1 0 []).slot 1).len = 0 ∧
      (one.holding 1 0 []).resetLine = false ∧ (one.holding 1 0 []).busy = false ∧ (one.holding 1 0 []).awaiting = false := by
  decide
theorem witness_RenderAfterParseRegroups :
    parse "111000 10100101".toList = .ok { size := 14, bytes := [0xA5, 0x38] } := by decide

end Sys2Proof.Machine
end

section
/-! SUPPORT. The storage part of a slot's invariant, and that the shared operations keep it (10_state R31 to R33, R35). -/

namespace Sys2Proof.Machine

/-! ## What the shared operations leave of a slot's length, size and validity -/

@[simp] theorem len_raiseSize (s : State) (k : SlotId) (v : Nat) : ((s.raiseSize k v).slot k).len = (s.slot k).len := by
  rw [slot_raiseSize_self]

@[simp] theorem size_raiseSize (s : State) (k : SlotId) (v : Nat) :
    ((s.raiseSize k v).slot k).size = max (s.slot k).size v := by rw [slot_raiseSize_self]

@[simp] theorem valid_raiseSize (s : State) (k : SlotId) (v : Nat) : ((s.raiseSize k v).slot k).valid = (s.slot k).valid := by
  rw [slot_raiseSize_self]

@[simp] theorem len_writeBit (s : State) (k : SlotId) (p : Nat) (v : Bool) :
    ((s.writeBit k p v).slot k).len = (s.slot k).len := len_maskByte ..

@[simp] theorem size_writeBit (s : State) (k : SlotId) (p : Nat) (v : Bool) :
    ((s.writeBit k p v).slot k).size = (s.slot k).size := size_maskByte ..

@[simp] theorem valid_writeBit (s : State) (k : SlotId) (p : Nat) (v : Bool) :
    ((s.writeBit k p v).slot k).valid = (s.slot k).valid := valid_maskByte ..

@[simp] theorem len_writeRange (d : SlotId) (start stop : Nat) (v : Bool) (s : State) :
    ((writeRange d start stop v s).slot d).len = (s.slot d).len := by
  unfold writeRange
  dsimp only
  split <;> simp

@[simp] theorem size_writeRange (d : SlotId) (start stop : Nat) (v : Bool) (s : State) :
    ((writeRange d start stop v s).slot d).size = (s.slot d).size := by
  unfold writeRange
  dsimp only
  split <;> simp

@[simp] theorem valid_writeRange (d : SlotId) (start stop : Nat) (v : Bool) (s : State) :
    ((writeRange d start stop v s).slot d).valid = (s.slot d).valid := by
  unfold writeRange
  dsimp only
  split <;> simp

/-! ## Storage that backs a length -/

/-- What a slot's invariant asks of its storage: canonical form inside MAX_BYTES, every byte below the backing length written. -/
def Mem.Backs (maxBytes len : Nat) (m : Mem) : Prop :=
  Mem.wf m = true ∧ (∀ x ∈ m, x.1 < maxBytes) ∧ ∀ i < len, (m.get? i).isSome = true

/-- A fill inside MAX_BYTES backs every length whose bytes were backed or are filled. -/
theorem Mem.Backs.fill {maxBytes len len' start n : Nat} {m : Mem} (h : m.Backs maxBytes len) (f : Nat → Byte)
    (hmax : ∀ i, start ≤ i → i < start + n → i < maxBytes)
    (hlen : ∀ i < len', i < len ∨ start ≤ i ∧ i < start + n) : (m.fill f start n).Backs maxBytes len' := by
  obtain ⟨hwf, hin, hsome⟩ := h
  refine ⟨Mem.wf_fill hwf f start n, fun x hx => ?_, fun i hi => ?_⟩
  · rcases Mem.mem_fill hx with ⟨h1, h2⟩ | hx
    · exact hmax _ h1 h2
    · exact hin x hx
  · rw [Mem.get?_fill]
    split
    · rfl
    · next hout => exact hsome i ((hlen i hi).resolve_right hout)

/-- Slot `k`'s storage backs its length. -/
def State.Backed (maxBytes : Nat) (s : State) (k : SlotId) : Prop := (s.slot k).buf.Backs maxBytes (s.slot k).len

theorem slotInv_iff (maxBytes : Nat) (c : Slot) :
    Slot.Inv maxBytes c ↔ c.buf.Backs maxBytes c.len ∧ c.len = ceil8 c.size ∧ c.len ≤ maxBytes ∧
      (c.valid = false → c.len = 0 ∧ c.size = 0) := by
  unfold Slot.Inv Mem.Backs
  tauto

theorem backed_of_slotInv {maxBytes : Nat} {s : State} {k : SlotId} (h : Slot.Inv maxBytes (s.slot k)) :
    s.Backed maxBytes k := ((slotInv_iff ..).1 h).1

/-- A slot that holds a container meets the invariant when its storage does and its length is the one its size needs. -/
theorem slotInv_of_valid {maxBytes : Nat} {s : State} {k : SlotId} (hb : s.Backed maxBytes k)
    (hlen : (s.slot k).len = ceil8 (s.slot k).size) (hmax : (s.slot k).len ≤ maxBytes) (hv : (s.slot k).valid = true) :
    Slot.Inv maxBytes (s.slot k) := (slotInv_iff ..).2 ⟨hb, hlen, hmax, by simp [hv]⟩

section
variable {maxBytes : Nat} {s : State} {k : SlotId}

theorem backed_fillBytes (h : s.Backed maxBytes k) (f : Nat → Byte) {start n : Nat}
    (hmax : ∀ i, start ≤ i → i < start + n → i < maxBytes) : (s.fillBytes k f start n).Backed maxBytes k := by
  unfold State.Backed
  rw [slot_fillBytes_self]
  exact h.fill f hmax fun i hi => .inl hi

theorem backed_grow (h : s.Backed maxBytes k) {n : Nat} (hn : n ≤ maxBytes) : (s.grow k n).Backed maxBytes k := by
  unfold State.Backed
  rw [slot_grow_self]
  exact h.fill _ (fun i _ _ => by omega) (fun i (_ : i < max _ _) => by omega)

/-- A byte's write is a fill of one byte. -/
theorem backed_writeByte (h : s.Backed maxBytes k) {i : Nat} (hi : i < maxBytes) (b : Byte) :
    (s.writeByte k i b).Backed maxBytes k := backed_fillBytes (n := 1) h (fun _ => b) fun j _ _ => by omega

theorem backed_maskByte (h : s.Backed maxBytes k) {i : Nat} (hi : i < maxBytes) (m : Byte) (v : Bool) :
    (s.maskByte k i m v).Backed maxBytes k := backed_writeByte h hi _

theorem backed_raiseSize (h : s.Backed maxBytes k) (v : Nat) : (s.raiseSize k v).Backed maxBytes k := by
  unfold State.Backed
  rw [slot_raiseSize_self]
  exact h

theorem backed_writeRange (h : s.Backed maxBytes k) {start stop : Nat} (hs : start < stop)
    (hmax : byteIndex (stop - 1) < maxBytes) (v : Bool) : (writeRange k start stop v s).Backed maxBytes k := by
  have hle : byteIndex start ≤ byteIndex (stop - 1) := by unfold byteIndex; omega
  have hfill := backed_fillBytes h (fun _ => fillByte v) (start := byteIndex start + 1)
    (n := byteIndex (stop - 1) - (byteIndex start + 1)) fun i _ _ => by omega
  unfold writeRange
  dsimp only
  split
  · exact backed_maskByte hfill (by omega) _ _
  · exact backed_maskByte (backed_maskByte hfill (by omega) _ _) hmax _ _

/-! ## What the effect phases write keeps a slot's invariant -/

/-- A slot that grew to `n` bytes for a size of `size` bits meets the invariant when its storage does (10_state R31, 20_memory
R65). -/
theorem slotInv_of_grown {t : State} {n : Nat} (size : Nat) (h : Slot.Inv maxBytes (s.slot k)) (hv : (s.slot k).valid = true)
    (hb : t.Backed maxBytes k) (hlen : (t.slot k).len = max (s.slot k).len n)
    (hsize : (t.slot k).size = max (s.slot k).size size) (hvalid : (t.slot k).valid = (s.slot k).valid)
    (hn : n = ceil8 size) (hmax : n ≤ maxBytes) : Slot.Inv maxBytes (t.slot k) := by
  obtain ⟨-, -, hlen0, hmax0, -⟩ := h
  refine slotInv_of_valid hb ?_ (hlen ▸ max_le hmax0 hmax) (hvalid.trans hv)
  rw [hlen, hsize, hlen0, hn]
  unfold ceil8
  omega

theorem slotInv_writeBitGrowing (h : Slot.Inv maxBytes (s.slot k)) (hv : (s.slot k).valid = true) {p : Nat}
    (hp : byteIndex p + 1 ≤ maxBytes) (v : Bool) : Slot.Inv maxBytes ((writeBitGrowing k p v s).slot k) := by
  have hb := backed_raiseSize (backed_maskByte (backed_grow (backed_of_slotInv h) hp) hp (bitMask p) v) (p + 1)
  exact slotInv_of_grown (p + 1) h hv hb (by simp [writeBitGrowing]) (by simp [writeBitGrowing])
    (by simp [writeBitGrowing]) (by unfold ceil8 byteIndex; omega) hp

theorem slotInv_effectSetb (h : Slot.Inv maxBytes (s.slot k)) (hv : (s.slot k).valid = true)
    (hmax : (sint32 s.a).toNat + 1 ≤ maxBytes) (imm : Byte) : Slot.Inv maxBytes ((effectSetb k imm s).slot k) := by
  have hb := backed_raiseSize (backed_writeByte (backed_grow (backed_of_slotInv h) hmax) hmax imm)
    (8 * ((sint32 s.a).toNat + 1))
  exact slotInv_of_grown (8 * ((sint32 s.a).toNat + 1)) h hv hb (by simp [effectSetb]) (by simp [effectSetb])
    (by simp [effectSetb]) (by unfold ceil8; omega) hmax

theorem slotInv_effectSetr (h : Slot.Inv maxBytes (s.slot k)) (hv : (s.slot k).valid = true)
    (hrange : 0 ≤ sint32 s.a ∧ sint32 s.a < sint32 s.b) (hmax : byteIndex ((sint32 s.b).toNat - 1) + 1 ≤ maxBytes)
    (v : Bool) : Slot.Inv maxBytes ((effectSetr k v s).slot k) := by
  have hlt : (sint32 s.a).toNat < (sint32 s.b).toNat := by omega
  have hb := backed_writeRange (backed_raiseSize (backed_grow (backed_of_slotInv h) hmax) (sint32 s.b).toNat) hlt hmax v
  exact slotInv_of_grown (sint32 s.b).toNat h hv hb (by simp [effectSetr]) (by simp [effectSetr])
    (by simp [effectSetr]) (by unfold ceil8 byteIndex; omega) hmax

theorem slotInv_effectSetrb (h : Slot.Inv maxBytes (s.slot k)) (hv : (s.slot k).valid = true)
    (hrange : 0 ≤ sint32 s.a ∧ sint32 s.a < sint32 s.b) (hmax : sint32 s.b ≤ maxBytes) (imm : Byte) :
    Slot.Inv maxBytes ((effectSetrb k imm s).slot k) := by
  have hn : (sint32 s.b).toNat ≤ maxBytes := by omega
  have hb := backed_raiseSize (backed_fillBytes (backed_grow (backed_of_slotInv h) hn) (fun _ => imm)
    (start := (sint32 s.a).toNat) (n := (sint32 s.b).toNat - (sint32 s.a).toNat) fun i _ _ => by omega)
    (8 * (sint32 s.b).toNat)
  exact slotInv_of_grown (8 * (sint32 s.b).toNat) h hv hb (by simp [effectSetrb]) (by simp [effectSetrb])
    (by simp [effectSetrb]) (by unfold ceil8; omega) hn

theorem slotInv_construct (h : Slot.Inv maxBytes (s.slot k)) {len size : Nat} (hlen : len = ceil8 size) (hmax : len ≤ maxBytes)
    (f : Nat → Byte) : Slot.Inv maxBytes ((s.construct k len size f).slot k) := by
  rw [slot_construct_self, slotInv_iff]
  exact ⟨(backed_of_slotInv h).fill f (fun i _ _ => by omega) fun i (_ : i < len) => by omega, hlen, hmax, by simp⟩

/-- Rewriting a slot's backing bytes keeps its invariant, whatever the new bytes. -/
theorem slotInv_fillBacking (h : Slot.Inv maxBytes (s.slot k)) (f : Nat → Byte) :
    Slot.Inv maxBytes ((s.fillBytes k f 0 (s.slot k).len).slot k) := by
  obtain ⟨hb, hlen, hmax, hv⟩ := (slotInv_iff ..).1 h
  rw [slot_fillBytes_self, slotInv_iff]
  exact ⟨hb.fill f (fun i _ _ => by omega) fun i hi => .inl hi, hlen, hmax, hv⟩

end

end Sys2Proof.Machine
end

section
/-! SUPPORT. What each check phase has established when it raises nothing (60_exceptions R207). -/

namespace Sys2Proof.Machine

@[simp] theorem noContainer_eq_false (s : State) (k : SlotId) : s.noContainer k = false ↔ (s.slot k).valid = true := by
  simp [State.noContainer]

/-- A check phase passes when its first check does and the others do. -/
theorem firstError_cons_eq_ok {x : Bool} {c : ErrCode} {l : List (Bool × ErrCode)} (hc : c ≠ .ok) :
    firstError ((x, c) :: l) = .ok ↔ x = false ∧ firstError l = .ok := by
  cases x <;> simp [firstError, hc]

@[simp] theorem badRange_eq_false (s : State) : badRange s = false ↔ 0 ≤ sint32 s.a ∧ sint32 s.a < sint32 s.b := by
  simp [badRange]

theorem checkSet_eq_ok (d : SlotId) (s : State) : checkSet d s = .ok ↔
    (s.slot d).valid = true ∧ 0 ≤ sint32 s.a ∧ byteIndex (sint32 s.a).toNat + 1 ≤ s.params.maxBytes := by
  simp [checkSet, firstError_cons_eq_ok]

theorem checkSetbo_eq_ok (d : SlotId) (s : State) : checkSetbo d s = .ok ↔
    (s.slot d).valid = true ∧ 0 ≤ sint32 s.a ∧ (0 ≤ sint32 s.b ∧ sint32 s.b ≤ 7) ∧
      sint32 s.a + 1 ≤ s.params.maxBytes := by
  simp [checkSetbo, firstError_cons_eq_ok]

theorem checkSetb_eq_ok (d : SlotId) (s : State) : checkSetb d s = .ok ↔
    (s.slot d).valid = true ∧ 0 ≤ sint32 s.a ∧ sint32 s.a + 1 ≤ s.params.maxBytes := by
  simp [checkSetb, firstError_cons_eq_ok]

theorem checkSetr_eq_ok (d : SlotId) (s : State) : checkSetr d s = .ok ↔
    (s.slot d).valid = true ∧ (0 ≤ sint32 s.a ∧ sint32 s.a < sint32 s.b) ∧
      byteIndex ((sint32 s.b).toNat - 1) + 1 ≤ s.params.maxBytes := by
  simp [checkSetr, firstError_cons_eq_ok]

theorem checkSetrb_eq_ok (d : SlotId) (s : State) : checkSetrb d s = .ok ↔
    (s.slot d).valid = true ∧ (0 ≤ sint32 s.a ∧ sint32 s.a < sint32 s.b) ∧ sint32 s.b ≤ s.params.maxBytes := by
  simp [checkSetrb, firstError_cons_eq_ok]

theorem checkGetrb_eq_ok (d : SlotId) (s : State) : checkGetrb d s = .ok ↔
    (s.slot d).valid = true ∧ (0 ≤ sint32 s.a ∧ sint32 s.a < sint32 s.b) ∧ sint32 s.b ≤ (s.slot d).len := by
  simp [checkGetrb, firstError_cons_eq_ok]

theorem checkNew_eq_ok (s : State) : checkNew s = .ok ↔
    0 ≤ sint32 s.a ∧ ceil8 (sint32 s.a).toNat ≤ s.params.maxBytes := by
  simp [checkNew, firstError_cons_eq_ok]

theorem checkLdbytes_eq_ok (s : State) : checkLdbytes s = .ok ↔ s.xlen.toNat ≤ s.params.maxBytes := by
  simp [checkLdbytes, firstError_cons_eq_ok]

end Sys2Proof.Machine
end

section
/-! SUPPORT. What a command can do to the whole state, and that the engine's step keeps the invariant. -/

namespace Sys2Proof.Machine

/-- A command's two outcomes: its effect with code OK, or an error code and STATUS alone (60_exceptions R206). -/
theorem exec_cases {i : Instr} {s t : State} (h : exec i s = .next t) :
    (checkOf i s = .ok ∧ t = (effectOf i s).complete .ok) ∨ (checkOf i s ≠ .ok ∧ t = s.complete (checkOf i s)) := by
  rw [exec_eq] at h
  injection h with h
  by_cases hc : checkOf i s = .ok
  · exact .inl ⟨hc, by rw [← h, if_pos hc]⟩
  · exact .inr ⟨hc, by rw [← h, if_neg hc]⟩

/-- An effect phase touches the slots, R, XLEN and XBUF at most (10_state R40, R42, R43). -/
theorem effectOf_frame (i : Instr) (s : State) :
    effectOf i s = { s with
      slots := (effectOf i s).slots, r := (effectOf i s).r, xlen := (effectOf i s).xlen, xbuf := (effectOf i s).xbuf } := by
  rcases effectOf_cases i s with ⟨h, -⟩ | ⟨w, h, -⟩ | ⟨m, w, h, -⟩
  · rw [h]
  · rw [h]
  · rw [h]

/-- A command touches the slots, R, XLEN, XBUF and STATUS at most. -/
theorem exec_frame {i : Instr} {s t : State} (h : exec i s = .next t) :
    t = { s with
      slots := t.slots, r := t.r, xlen := t.xlen, xbuf := t.xbuf
      busy := false, errSeen := s.errSeen || decide (t.err ≠ .ok), err := t.err } := by
  rcases exec_cases h with ⟨-, rfl⟩ | ⟨-, rfl⟩
  · rw [effectOf_frame]
    rfl
  · rfl

/-- What an effect phase leaves in the receiver's slot meets the slot's invariant (10_state R31 to R33, R35). -/
theorem slotInv_effectOf {i : Instr} {s : State} (hp : s.params.wf) (h : ∀ k, Slot.Inv s.params.maxBytes (s.slot k))
    (hc : checkOf i s = .ok) : Slot.Inv s.params.maxBytes ((effectOf i s).slot i.receiver) := by
  cases i with
  | get d => exact h d
  | set d v =>
    obtain ⟨hv, -, hmax⟩ := (checkSet_eq_ok d s).1 hc
    exact slotInv_writeBitGrowing (h d) hv hmax v
  | setbo d v =>
    obtain ⟨hv, ha, hb, hmax⟩ := (checkSetbo_eq_ok d s).1 hc
    exact slotInv_writeBitGrowing (h d) hv (by unfold byteIndex; omega) v
  | getb d => exact h d
  | setb d imm =>
    obtain ⟨hv, ha, hmax⟩ := (checkSetb_eq_ok d s).1 hc
    exact slotInv_effectSetb (h d) hv (by omega) imm
  | setr d v =>
    obtain ⟨hv, hrange, hmax⟩ := (checkSetr_eq_ok d s).1 hc
    exact slotInv_effectSetr (h d) hv hrange hmax v
  | setrb d imm =>
    obtain ⟨hv, hrange, hmax⟩ := (checkSetrb_eq_ok d s).1 hc
    exact slotInv_effectSetrb (h d) hv hrange hmax imm
  | getrb d => exact h d
  | and d o => exact slotInv_fillBacking (h d) _
  | or d o => exact slotInv_fillBacking (h d) _
  | xor d o => exact slotInv_fillBacking (h d) _
  | nor d o => exact slotInv_fillBacking (h d) _
  | xnor d o => exact slotInv_fillBacking (h d) _
  | nand d o => exact slotInv_fillBacking (h d) _
  | not d => exact slotInv_fillBacking (h d) _
  | new d => exact slotInv_construct (h d) rfl ((checkNew_eq_ok s).1 hc).2 _
  | ldint d w =>
    have hw : widthBytes w ≤ 8 := by cases w <;> decide
    obtain ⟨-, -, h8, -⟩ := hp
    exact slotInv_construct (h d) (by unfold ceil8; omega) (hw.trans h8) _
  | ldbytes d => exact slotInv_construct (h d) (by unfold ceil8; omega) ((checkLdbytes_eq_ok s).1 hc) _
  | clone d o =>
    obtain ⟨-, -, hlen, hmax, -⟩ := h o
    show Slot.Inv s.params.maxBytes ((effectClone d o s).slot d)
    unfold effectClone
    split
    · exact h d
    · exact slotInv_construct (h d) hlen hmax _
  | getsize d => exact h d
  | getlen d => exact h d

/-- GETRB leaves XBUF canonical and inside MAX_BYTES: its slice is no longer than the slot (10_state R43, 41_range R133). -/
theorem xbufInv_effectGetrb {d : SlotId} {s : State} (h : Slot.Inv s.params.maxBytes (s.slot d)) (hx : s.XbufInv)
    (hc : checkGetrb d s = .ok) : (effectGetrb d s).XbufInv := by
  obtain ⟨hwf, hin⟩ := hx
  obtain ⟨-, -, -, hmax, -⟩ := h
  obtain ⟨-, -, hend⟩ := (checkGetrb_eq_ok d s).1 hc
  refine ⟨Mem.wf_fill hwf _ _ _, fun x hx => ?_⟩
  rcases Mem.mem_fill hx with ⟨-, hlt⟩ | hx
  · show x.1 < s.params.maxBytes
    omega
  · exact hin x hx

/-- An effect phase whose check passed keeps the invariant, when its receiver exists. -/
theorem inv_effectOf {i : Instr} {s : State} (h : s.Inv) (hr : s.resetLine = false)
    (hd : i.receiver.toNat < s.params.nslots) (hc : checkOf i s = .ok) : (effectOf i s).Inv := by
  obtain ⟨hp, hslot, hex, hx, herr, hbusy, -⟩ := h
  have released : s.resetLine = true → (effectOf i s).AtReset := by simp [hr]
  rcases effectOf_cases i s with ⟨he, hne⟩ | ⟨w, he, -⟩ | ⟨m, w, he, hi⟩
  · have hslot' (k : SlotId) : Slot.Inv s.params.maxBytes ((effectOf i s).slot k) := by
      by_cases hk : k = i.receiver
      · exact hk ▸ slotInv_effectOf hp hslot hc
      · exact hne k hk ▸ hslot k
    have hex' (k : SlotId) (hk : s.params.nslots ≤ k.toNat) : ((effectOf i s).slot k).valid = false := by
      rw [hne k (by rintro rfl; omega)]
      exact hex k hk
    rw [he] at released ⊢
    exact ⟨hp, hslot', hex', hx, herr, hbusy, released⟩
  · rw [he] at released ⊢
    exact ⟨hp, hslot, hex, hx, herr, hbusy, released⟩
  · have hx' : (effectOf i s).XbufInv := by
      rw [hi] at hc ⊢
      exact xbufInv_effectGetrb (hslot _) hx hc
    rw [he] at released hx' ⊢
    exact ⟨hp, hslot, hex, hx', herr, hbusy, released⟩

/-- Completion keeps the invariant: ERRSEEN is set with every error code (60_exceptions R206). -/
theorem inv_complete {s : State} (h : s.Inv) (hr : s.resetLine = false) (c : ErrCode) : (s.complete c).Inv := by
  obtain ⟨hp, hslot, hex, hx, -, -, -⟩ := h
  exact ⟨hp, hslot, hex, hx, by simp +contextual, by simp, by simp [hr]⟩

theorem inv_exec {i : Instr} {s t : State} (h : s.Inv) (hr : s.resetLine = false)
    (hd : i.receiver.toNat < s.params.nslots) (ht : exec i s = .next t) : t.Inv := by
  rcases exec_cases ht with ⟨hc, rfl⟩ | ⟨-, rfl⟩
  · exact inv_complete (inv_effectOf h hr hd hc) (by rw [effectOf_frame]; exact hr) _
  · exact inv_complete h hr _

/-- A decoded command's slots exist (30_encoding R87). -/
theorem wellFormed_of_decode {n : Nat} {w : Word} {i : Instr} (h : decode n w = .ok i) : i.wellFormed n = true := by
  unfold decode at h
  dsimp only at h
  split at h
  · cases h
  · split_ifs at h with _ _ _ hwf
    injection h with h
    subst h
    simpa using hwf

theorem receiver_lt_of_decode {n : Nat} {w : Word} {i : Instr} (h : decode n w = .ok i) : i.receiver.toNat < n := by
  have hwf := wellFormed_of_decode h
  unfold Instr.wellFormed SlotId.inRange at hwf
  exact of_decide_eq_true (Bool.and_eq_true_iff.1 hwf).1

/-- The engine's step runs the decoded command, or completes with IllegalCommand (30_encoding R95). -/
theorem engineStep_cases {s t : State} (h : engineStep s = .next t) :
    (∃ i, decode s.params.nslots s.cmd = .ok i ∧ exec i s = .next t) ∨ t = s.complete .illegalCommand := by
  unfold engineStep at h
  split at h
  · next i hi => exact .inl ⟨i, hi, h⟩
  · injection h with h
    exact .inr h.symm

theorem inv_engineStep {s t : State} (h : s.Inv) (hr : s.resetLine = false) (ht : engineStep s = .next t) : t.Inv := by
  rcases engineStep_cases ht with ⟨i, hi, hexec⟩ | rfl
  · exact inv_exec h hr (receiver_lt_of_decode hi) hexec
  · exact inv_complete h hr _

end Sys2Proof.Machine
end

section
/-! SUPPORT. What the host's step can be, said once, and what it keeps. -/

namespace Sys2Proof.Machine

/-- What an access or a move of the reset input can lead to: a read, a write that is ignored or lost, a write that the protocol
allows of CMD, of an operand register or beyond the registers, or the reset input's move (20_memory R71 to R73, 70_reset R230,
R235). -/
inductive HostMove (s : State) : HostAct → State → Prop where
  | read (bytes addr : Nat) : HostMove s (.read bytes addr) (s.hostRead bytes (addr - s.params.base))
  | wait (hb : s.busy = false) : HostMove s .waitIdle (s.hostRead 4 0x010)
  | waitAgain (hb : s.busy = true) : HostMove s .waitIdle { s.hostRead 4 0x010 with host := .waitIdle :: s.host }
  | ignored (bytes addr : Nat) (data : Word) : HostMove s (.write bytes addr data) s
  | issue (bytes addr : Nat) (data : Word) (hr : s.resetLine = false) : HostMove s (.write bytes addr data) (s.issue data)
  | operand (bytes addr : Nat) (data a b xlen : Word) (hr : s.resetLine = false) :
      HostMove s (.write bytes addr data) { s with a := a, b := b, xlen := xlen }
  | beyond (bytes addr : Nat) (data : Word) (off : Nat) (hr : s.resetLine = false) :
      HostMove s (.write bytes addr data) (s.writeBytes bytes off data)
  | assertReset : HostMove s .assertReset s.assertReset
  | releaseReset : HostMove s .releaseReset { s with resetLine := false }

theorem hostMove_of_hostWrite {s t : State} {bytes off : Nat} {data : Word} (addr : Nat) (hr : s.resetLine = false)
    (h : s.hostWrite bytes off data = .next t) : HostMove s (.write bytes addr data) t := by
  unfold State.hostWrite at h
  split_ifs at h
  · split at h
    · obtain ⟨rfl, -⟩ := guardedWrite_next h
      exact .issue _ _ _ hr
    · obtain ⟨rfl, -⟩ := guardedWrite_next h
      exact .operand _ _ _ data s.b s.xlen hr
    · obtain ⟨rfl, -⟩ := guardedWrite_next h
      exact .operand _ _ _ s.a data s.xlen hr
    · obtain ⟨rfl, -⟩ := guardedWrite_next h
      exact .operand _ _ _ s.a s.b data hr
    · injection h with h
      exact h ▸ .ignored _ _ _
  · obtain ⟨rfl, -⟩ := guardedWrite_next h
    exact .beyond _ _ _ off hr
  · injection h with h
    exact h ▸ .ignored _ _ _

theorem hostMove_of_hostAct {s t : State} {act : HostAct} (h : s.hostAct act = .next t) : HostMove s act t := by
  cases act with
  | read bytes addr =>
    simp only [State.hostAct] at h
    split at h
    · cases h
    · injection h with h
      exact h ▸ .read _ _
  | write bytes addr data =>
    simp only [State.hostAct] at h
    split at h
    · cases h
    · split_ifs at h with hr
      · injection h with h
        exact h ▸ .ignored _ _ _
      · exact hostMove_of_hostWrite addr (by simpa using hr) h
  | waitIdle =>
    simp only [State.hostAct] at h
    injection h with h
    subst h
    split_ifs with hb
    · exact .waitAgain hb
    · exact .wait (by simpa using hb)
  | assertReset =>
    injection h with h
    exact h ▸ .assertReset
  | releaseReset =>
    injection h with h
    exact h ▸ .releaseReset

theorem hostStep_no_access {s : State} (hh : s.host = []) : hostStep s = .next s := by simp [hostStep, hh]

/-- With no access left the host's step changes nothing but the latency counter (60_exceptions R217). -/
theorem step_no_access {s : State} (he : ¬EngineNext s) (hh : s.host = []) : ∃ n, step s = .next { s with lat := n } := by
  unfold step
  split_ifs with hr hb
  · exact ⟨s.lat, hostStep_no_access hh⟩
  · split
    · next hl => exact absurd ⟨by simpa using hr, hb, hl⟩ he
    · next n hl => exact ⟨n, hostStep_no_access (s := { s with lat := n }) hh⟩
  · exact ⟨s.lat, hostStep_no_access hh⟩

theorem hostNext_of_not_engineNext {s : State} {act : HostAct} {rest : List HostAct} (he : ¬EngineNext s)
    (hh : s.host = act :: rest) : HostNext s act rest := by
  refine ⟨hh, ?_⟩
  simp only [EngineNext, not_and_or, Bool.not_eq_false, Bool.not_eq_true] at he
  exact he

/-- Everything a step can be: the engine's, the host's with no access left, or the host's with its next access. -/
theorem step_cases {s t : State} (h : step s = .next t) :
    (EngineNext s ∧ engineStep s = .next t) ∨ (∃ n, t = { s with lat := n }) ∨
      ∃ act rest n, HostNext s act rest ∧ HostMove { s with host := rest, lat := n } act t := by
  by_cases he : EngineNext s
  · exact .inl ⟨he, step_engine he ▸ h⟩
  · right
    by_cases hh : s.host = []
    · obtain ⟨n, hn⟩ := step_no_access he hh
      rw [hn] at h
      injection h with h
      exact .inl ⟨n, h.symm⟩
    · obtain ⟨act, rest, hh⟩ := List.exists_cons_of_ne_nil hh
      have hnext := hostNext_of_not_engineNext he hh
      rw [step_host hnext] at h
      exact .inr ⟨act, rest, _, hnext, hostMove_of_hostAct h⟩

end Sys2Proof.Machine
end

section
/-! SUPPORT. The invariant holds at reset and every step keeps it (10_state R31, R32, R35, R49), and what a step does to ERRSEEN. -/

namespace Sys2Proof.Machine

/-- Every slot of a state at reset is a slot after reset. -/
theorem slot_of_atReset {s : State} (h : s.AtReset) (k : SlotId) : s.slot k = Slot.reset := by
  obtain ⟨hslots, -⟩ := h
  simp [State.slot, hslots]

theorem slotInv_reset (maxBytes : Nat) : Slot.Inv maxBytes Slot.reset :=
  ⟨rfl, by simp [Slot.reset], rfl, Nat.zero_le _, by simp [Slot.reset], fun _ => ⟨rfl, rfl⟩⟩

/-- R49's values meet the invariant, whatever the level of the reset input. -/
theorem inv_of_atReset {s : State} (hp : s.params.wf) (h : s.AtReset) : s.Inv := by
  have hslot := slot_of_atReset h
  obtain ⟨-, -, -, -, -, -, hx, hbusy, -, herr⟩ := id h
  refine ⟨hp, fun k => ?_, fun k _ => ?_, ⟨by simp [hx, Mem.wf], by simp [hx]⟩, by simp [herr], by simp [hbusy],
    fun _ => h⟩
  · rw [hslot]
    exact slotInv_reset _
  · rw [hslot]
    rfl

theorem atReset_resetWith (p : Params) : (State.resetWith p).AtReset :=
  ⟨rfl, rfl, rfl, rfl, rfl, rfl, rfl, rfl, rfl, rfl⟩

theorem atReset_assertReset (s : State) : s.assertReset.AtReset := atReset_resetWith s.params

theorem xbufInv_writeBytes {s : State} (h : s.XbufInv) (bytes off : Nat) (data : Word) :
    (s.writeBytes bytes off data).XbufInv := by
  unfold State.writeBytes
  dsimp only
  split
  · exact xbufInv_writeByteAt h _ _
  · exact xbufInv_writeByteAt (xbufInv_writeByteAt (xbufInv_writeByteAt (xbufInv_writeByteAt h _ _) _ _) _ _) _ _

/-- While BUSY = 1 no read ends the host's wait (20_memory R76). -/
theorem awaiting_hostRead {s : State} (h : s.busy = true → s.awaiting = true) (bytes off : Nat) (hb : s.busy = true) :
    (s.hostRead bytes off).awaiting = true := by
  simp [State.hostRead, hb, h hb]

/-- Each of the host's moves keeps the invariant: a write moves nothing while the reset input is asserted (70_reset R230), and a
wait ends only at BUSY = 0. -/
theorem inv_hostMove {s t : State} {act : HostAct} (h : s.Inv) (hm : HostMove s act t) : t.Inv := by
  obtain ⟨hp, hslot, hex, hx, herr, hbusy, hreset⟩ := id h
  cases hm with
  | read bytes addr => exact ⟨hp, hslot, hex, hx, herr, awaiting_hostRead hbusy _ _, hreset⟩
  | wait hb => exact ⟨hp, hslot, hex, hx, herr, awaiting_hostRead hbusy _ _, hreset⟩
  | waitAgain hb => exact ⟨hp, hslot, hex, hx, herr, awaiting_hostRead hbusy 4 0x010, hreset⟩
  | ignored => exact h
  | issue bytes addr data hr => exact ⟨hp, hslot, hex, hx, herr, by simp, by simp [hr]⟩
  | operand bytes addr data a b xlen hr => exact ⟨hp, hslot, hex, hx, herr, hbusy, by simp [hr]⟩
  | beyond bytes addr data off hr =>
    have hx' := xbufInv_writeBytes hx bytes off data
    rw [onlyXbuf_writeBytes s bytes off data] at hx' ⊢
    exact ⟨hp, hslot, hex, hx', herr, hbusy, by simp [hr]⟩
  | assertReset => exact inv_of_atReset hp (atReset_assertReset s)
  | releaseReset => exact ⟨hp, hslot, hex, hx, herr, hbusy, by simp⟩

/-- Settles O44: the engine's step by its check and effect phases, the host's by its moves. -/
theorem everyStepKeepsTheInvariant : Obligations.EveryStepKeepsTheInvariant := by
  intro s t h ht
  rcases step_cases ht with ⟨⟨hr, -⟩, he⟩ | ⟨n, rfl⟩ | ⟨act, rest, n, -, hm⟩
  · exact inv_engineStep h hr he
  · exact h
  · exact inv_hostMove (s := { s with host := rest, lat := n }) h hm

/-- Settles O45: R49's values meet the invariant. -/
theorem resetMeetsTheInvariant : Obligations.ResetMeetsTheInvariant := fun p hp =>
  inv_of_atReset hp (atReset_resetWith p)

/-- Settles O40: a completion keeps ERRSEEN or sets it, and of the host's moves only the reset input's assertion clears it. -/
theorem errSeenIsSticky : Obligations.ErrSeenIsSticky := by
  intro s t ht hs
  rcases step_cases ht with ⟨-, he⟩ | ⟨n, rfl⟩ | ⟨act, rest, n, hnext, hm⟩
  · left
    rcases engineStep_cases he with ⟨i, -, hexec⟩ | rfl
    · simpa [hs] using congrArg State.errSeen (exec_frame hexec)
    · simp
  · exact .inl hs
  · cases hm with
    | beyond bytes addr data off =>
      left
      rw [onlyXbuf_writeBytes]
      exact hs
    | assertReset => exact .inr ⟨rest, hnext⟩
    | _ => exact .inl hs

end Sys2Proof.Machine
end

section
/-! SUPPORT. The STATUS word (10_state R44, R45) and the state after reset (R49). -/

namespace Sys2Proof.Machine

theorem errCode_bits_le (c : ErrCode) : c.bits.toNat ≤ 5 := by cases c <;> decide

/-- An append as a number: the high part times the low part's range, plus the low part. -/
theorem toNat_append_eq_add {m n : Nat} (x : BitVec m) (y : BitVec n) : (x ++ y).toNat = x.toNat * 2 ^ n + y.toNat := by
  rw [BitVec.toNat_append, ← Nat.shiftLeft_add_eq_or_of_lt y.isLt, Nat.shiftLeft_eq]

/-- STATUS as a number (10_state R44). -/
theorem status_toNat (s : State) :
    s.status.toNat = 16 * s.err.bits.toNat + 2 * s.errSeen.toNat + s.busy.toNat := by
  simp only [State.status, toNat_append_eq_add, BitVec.toNat_ofBool, BitVec.toNat_ofNat]
  omega

theorem status_reserved (s : State) {i : Nat} (h : i = 2 ∨ i = 3 ∨ 8 ≤ i) : s.status.getLsbD i = false := by
  simp only [State.status, BitVec.getLsbD_append]
  rcases h with rfl | rfl | h
  · rfl
  · rfl
  · rw [if_neg (by omega)]
    exact BitVec.getLsbD_zero

/-- BUSY is STATUS's bit 0 (10_state R44). -/
theorem status_busy (s : State) : s.status.getLsbD 0 = s.busy := by
  simp only [State.status, BitVec.getLsbD_append]
  simp

/-- Settles O39: STATUS is the append of its fields, and its reserved fields are 0. -/
theorem statusWordLayout : Obligations.StatusWordLayout := fun s =>
  ⟨status_toNat s, errCode_bits_le s.err, fun _ => status_reserved s⟩

/-- Settles O41: R49's values, read off the state after reset. -/
theorem resetLeavesTheTable : Obligations.ResetLeavesTheTable := by
  have h := atReset_resetWith Config.defaults
  refine ⟨h, rfl, rfl, rfl, fun k => ?_⟩
  rw [show State.reset.slot k = Slot.reset from slot_of_atReset h k]
  exact ⟨rfl, rfl, rfl⟩

end Sys2Proof.Machine
end

section
/-! SUPPORT. The frame of a command, as the spec's rules on registers state it (10_state R37 to R43, R46). -/

namespace Sys2Proof.Machine

/-- Settles O32: none of these fields is in a command's frame. -/
theorem engineNeverWritesOperandRegisters : Obligations.EngineNeverWritesOperandRegisters := by
  intro i s t h
  rw [exec_frame h]
  exact ⟨rfl, rfl, rfl, rfl, rfl, rfl, rfl, rfl, rfl, rfl, rfl⟩

/-- Settles O33: an effect phase that touches R is GET's, GETB's, GETSIZE's or GETLEN's. -/
theorem resultRegisterWriters : Obligations.ResultRegisterWriters := by
  intro i s t h hno
  rcases exec_cases h with ⟨-, rfl⟩ | ⟨-, rfl⟩
  · rcases effectOf_cases i s with ⟨he, -⟩ | ⟨w, -, hi⟩ | ⟨m, w, he, -⟩
    · rw [he]
      rfl
    · obtain herr | ⟨h1, h2, h3, h4⟩ := hno
      · exact absurd rfl herr
      · simp [h1, h2, h3, h4] at hi
    · rw [he]
      rfl
  · rfl

/-- Settles O34: an effect phase that touches XLEN or XBUF is GETRB's. -/
theorem transferBufferWriters : Obligations.TransferBufferWriters := by
  intro i s t h hno
  rcases exec_cases h with ⟨-, rfl⟩ | ⟨-, rfl⟩
  · rcases effectOf_cases i s with ⟨he, -⟩ | ⟨w, he, -⟩ | ⟨m, w, -, hi⟩
    · rw [he]
      exact ⟨rfl, rfl⟩
    · rw [he]
      exact ⟨rfl, rfl⟩
    · obtain herr | hne := hno
      · exact absurd rfl herr
      · exact absurd hi hne
  · exact ⟨rfl, rfl⟩

end Sys2Proof.Machine
end

section
/-! SUPPORT. The host's writes of the registers (20_memory R71). -/

namespace Sys2Proof.Machine

/-- A word write at a register's offset reaches the register, or is lost while the reset input is asserted (70_reset R230). -/
theorem hostAct_write_register (s : State) {off : Nat} (hoff : off < Config.registersEnd) (h4 : off % 4 = 0) (w : Word) :
    s.hostAct (.write 4 (s.params.base + off) w) = if s.resetLine then .next s else s.hostWrite 4 off w := by
  have hwin : off < 0x20000000 := hoff.trans (by decide)
  simp only [State.hostAct, accessFault_eq_none s.params (bytes := 4) hwin (decide_eq_true h4), Nat.add_sub_cancel_left]

theorem guardedWrite_idle {s : State} (hb : s.busy = false) (ha : s.awaiting = false) (t : State) :
    s.guardedWrite t = .next t := by
  simp [State.guardedWrite, State.writeBarred, hb, ha]

/-- A guarded write of a register on an idle machine whose last command the host has seen end takes effect (70_reset R236). -/
theorem step_idle_write {s t : State} {off : Nat} {w : Word} {rest : List HostAct}
    (h : IdleNext s (.write 4 (s.params.base + off) w) rest) (hoff : off < Config.registersEnd) (h4 : off % 4 = 0)
    (hw : State.hostWrite { s with host := rest } 4 off w = State.guardedWrite { s with host := rest } t) :
    step s = .next t := by
  rw [step_idle h, hostAct_write_register { s with host := rest } hoff h4]
  obtain ⟨-, hr, hb, ha⟩ := h
  rw [if_neg (by simp [hr]), hw, guardedWrite_idle (s := { s with host := rest }) hb ha]

/-- R, STATUS and the parameters ignore a write (10_state R40, R44, R46). -/
theorem hostWrite_readOnly (s : State) {off : Nat} (hoff : off ∈ [0x00C, 0x010, 0x018, 0x01C]) (w : Word) :
    s.hostWrite 4 off w = .next s := by
  simp only [List.mem_cons, List.not_mem_nil, or_false] at hoff
  rcases hoff with rfl | rfl | rfl | rfl
  · rfl
  · rfl
  · rfl
  · rfl

/-- Settles O46: an idle machine's write of CMD is the issue of the word. -/
theorem cmdWriteStartsTheCommand : Obligations.CmdWriteStartsTheCommand := by
  intro s w rest h
  refine ⟨State.issue { s with host := rest } w, step_idle_write (off := 0) h (by decide) rfl rfl, rfl, ?_⟩
  rw [status_busy, issue_busy]

/-- Settles O47: the three offsets are those of A, B and XLEN, and the write is not barred. -/
theorem operandWrites : Obligations.OperandWrites := fun _ _ _ =>
  ⟨fun h => step_idle_write h (by decide) rfl rfl, fun h => step_idle_write h (by decide) rfl rfl,
    fun h => step_idle_write h (by decide) rfl rfl⟩

/-- Settles O48: lost while the reset input is asserted, ignored by the register otherwise. -/
theorem readOnlyRegistersIgnoreWrites : Obligations.ReadOnlyRegistersIgnoreWrites := by
  intro s off w rest hoff h
  have hreg : ∀ off ∈ [0x00C, 0x010, 0x018, 0x01C], off < Config.registersEnd ∧ off % 4 = 0 := by decide
  obtain ⟨hlt, h4⟩ := hreg off hoff
  rw [step_host h, hostAct_write_register { s with host := rest, lat := _ } hlt h4, hostWrite_readOnly _ hoff, ite_self]
  exact ⟨_, rfl, rfl⟩

end Sys2Proof.Machine
end

section
/-! SUPPORT. The host's accesses of the window: the ones it allows, the ones that fault, and what a read returns while BUSY = 0
(20_memory R71 to R73). -/

namespace Sys2Proof.Machine

/-- An allowed read answers what `State.hostRead` makes of it (20_memory R72). -/
theorem hostAct_read (s : State) {bytes off : Nat} (hf : accessFault s.params bytes (s.params.base + off) = none) :
    s.hostAct (.read bytes (s.params.base + off)) = .next (s.hostRead bytes off) := by
  simp only [State.hostAct, hf, Nat.add_sub_cancel_left]

/-- An allowed write is lost while the reset input is asserted, and otherwise `State.hostWrite`'s (70_reset R230). -/
theorem hostAct_write (s : State) {bytes off : Nat} (hf : accessFault s.params bytes (s.params.base + off) = none)
    (w : Word) : s.hostAct (.write bytes (s.params.base + off) w) = if s.resetLine then .next s else s.hostWrite bytes off w := by
  simp only [State.hostAct, hf, Nat.add_sub_cancel_left]

/-- While BUSY = 0 the host's next access is the step, whatever the reset input's level. -/
theorem step_not_busy {s : State} {act : HostAct} {rest : List HostAct} (hh : s.host = act :: rest) (hb : s.busy = false) :
    step s = State.hostAct { s with host := rest } act := by
  rw [step_host ⟨hh, .inr (.inl hb)⟩]
  simp [hb]

/-- While BUSY = 0 an allowed read changes the read value, the host's list and, at STATUS, what the host has seen (20_memory R70,
R76). -/
theorem step_read_not_busy {s : State} {bytes off : Nat} {rest : List HostAct}
    (hh : s.host = .read bytes (s.params.base + off) :: rest) (hb : s.busy = false)
    (hf : accessFault s.params bytes (s.params.base + off) = none) :
    step s = .next { s with
      busData := s.readValue bytes off, host := rest, awaiting := if off = 0x010 then false else s.awaiting } := by
  rw [step_not_busy hh hb, hostAct_read { s with host := rest } hf]
  show Host.Outcome.next { s with
    busData := s.readValue bytes off, host := rest, draws := if s.busy then s.draws + 1 else s.draws
    awaiting := if off = 0x010 ∧ s.busy = false then false else s.awaiting } = _
  simp [hb]

/-! ## Registers -/

/-- The registers by their offsets, while BUSY = 0 (20_memory R71). -/
theorem registerValue_of_mem {s : State} (hb : s.busy = false) {off : Nat} {v : Word}
    (h : (off, v) ∈ [(0x000, s.cmd), (0x004, s.a), (0x008, s.b), (0x00C, s.r), (0x010, s.status), (0x014, s.xlen),
      (0x018, BitVec.ofNat 32 s.params.nslots), (0x01C, BitVec.ofNat 32 s.params.maxBytes)]) :
    off < Config.registersEnd ∧ off % 4 = 0 ∧ s.registerValue (off / 4) = v := by
  simp only [List.mem_cons, Prod.mk.injEq, List.not_mem_nil, or_false] at h
  obtain ⟨rfl, rfl⟩ | ⟨rfl, rfl⟩ | ⟨rfl, rfl⟩ | ⟨rfl, rfl⟩ | ⟨rfl, rfl⟩ | ⟨rfl, rfl⟩ | ⟨rfl, rfl⟩ | ⟨rfl, rfl⟩ := h <;>
    exact ⟨by decide, rfl, by simp [State.registerValue, hb]⟩

/-- Settles O49: an aligned word below the registers' end is no fault, and its value is the register's. -/
theorem registerReads : Obligations.RegisterReads := by
  intro s off rest hh hb v hv
  obtain ⟨hlt, h4, hval⟩ := registerValue_of_mem hb hv
  rw [step_read_not_busy hh hb (accessFault_eq_none _ (hlt.trans (by decide)) (decide_eq_true h4)),
    State.readValue, if_pos hlt, hval]

/-! ## Shapes that fault -/

theorem shapeAllowed_eq_false {bytes off : Nat}
    (h : (bytes ≠ 1 ∧ bytes ≠ 4) ∨ (bytes = 4 ∧ off % 4 ≠ 0) ∨ (bytes = 1 ∧ off < 0x20)) : shapeAllowed bytes off = false := by
  unfold shapeAllowed
  split
  · exact decide_eq_false (by unfold Config.registersEnd; omega)
  · exact decide_eq_false (by omega)
  · rfl

/-- An access in the window of a shape that it does not take is a fault (20_memory R72). -/
theorem accessFault_eq_shape (p : Params) {bytes off : Nat} (hoff : off < 0x20000000) (hs : shapeAllowed bytes off = false) :
    accessFault p bytes (p.base + off) = some .hostAccessShape := by
  unfold accessFault Config.windowBytes
  rw [if_neg (by omega), Nat.add_sub_cancel_left, hs]
  rfl

/-- Settles O52: the access faults before it reads or writes. -/
theorem wrongShapesFault : Obligations.WrongShapesFault := by
  intro s bytes off w rest hoff hs
  have hf := accessFault_eq_shape s.params hoff (shapeAllowed_eq_false hs)
  constructor
  · intro h
    rw [step_host h]
    simp only [State.hostAct, hf]
  · intro h
    rw [step_host h]
    simp only [State.hostAct, hf]

/-! ## Reserved offsets -/

/-- An offset that lies in no register and not in XBUF (20_memory R73). -/
def Reserved (p : Params) (off : Nat) : Prop :=
  (0x20 ≤ off ∧ off < 0x10000000) ∨ (0x10000000 + p.maxBytes ≤ off ∧ off < 0x20000000)

theorem Reserved.not_register {p : Params} {off : Nat} (h : Reserved p off) : ¬off < Config.registersEnd := by
  unfold Reserved at h
  unfold Config.registersEnd
  omega

/-- The bytes of an aligned word at a reserved offset are none of XBUF's. -/
theorem Reserved.not_inXbuf {p : Params} {off j : Nat} (h : Reserved p off) (hj : j = 0 ∨ off % 4 = 0 ∧ j < 4) :
    inXbuf p (off + j) = false := by
  unfold Reserved at h
  unfold inXbuf Config.xbufOffset
  exact decide_eq_false (by omega)

theorem Reserved.accessFault_eq_none {p : Params} {bytes off : Nat} (h : Reserved p off)
    (hs : bytes = 1 ∨ bytes = 4 ∧ off % 4 = 0) : accessFault p bytes (p.base + off) = none := by
  refine Machine.accessFault_eq_none p (by unfold Reserved at h; omega) ?_
  obtain rfl | ⟨rfl, h4⟩ := hs
  · exact decide_eq_true (Nat.le_of_not_lt h.not_register)
  · exact decide_eq_true h4

/-- A reserved offset reads 0 (20_memory R73). -/
theorem readValue_reserved {s : State} {bytes off : Nat} (h : Reserved s.params off) (hs : bytes = 1 ∨ bytes = 4 ∧ off % 4 = 0) :
    s.readValue bytes off = 0 := by
  have hbyte {j : Nat} (hj : j = 0 ∨ off % 4 = 0 ∧ j < 4) : s.byteValue off j = 0 := by
    rw [State.byteValue, h.not_inXbuf hj]
    rfl
  unfold State.readValue
  rw [if_neg h.not_register]
  obtain rfl | ⟨rfl, h4⟩ := hs
  · rw [if_pos rfl, hbyte (.inl rfl)]
    rfl
  · rw [if_neg (by decide), hbyte (.inr ⟨h4, by decide⟩), hbyte (.inr ⟨h4, by decide⟩), hbyte (.inr ⟨h4, by decide⟩),
      hbyte (.inl rfl)]
    rfl

/-- A reserved offset ignores a write (20_memory R73). -/
theorem hostWrite_reserved {s : State} {off : Nat} (h : Reserved s.params off) (bytes : Nat) (w : Word) :
    s.hostWrite bytes off w = .next s := by
  unfold State.hostWrite
  rw [if_neg h.not_register, show inXbuf s.params off = false from h.not_inXbuf (.inl rfl)]
  rfl

/-- A read of any register but STATUS, or beyond the registers, ends no wait (20_memory R76). -/
theorem hostRead_not_status (s : State) (bytes : Nat) {off : Nat} (h : off ≠ 0x010) :
    s.hostRead bytes off =
      { s with busData := s.readValue bytes off, draws := if s.busy then s.draws + 1 else s.draws } := by
  simp [State.hostRead, h]

/-- Settles O51: a read there is allowed and returns 0, a write is lost in reset and ignored otherwise. -/
theorem reservedOffsets : Obligations.ReservedOffsets := by
  intro s bytes off w rest hs (hoff : Reserved s.params off)
  have hne : off ≠ 0x010 := fun h => hoff.not_register (h ▸ by decide)
  constructor
  · intro h
    rw [step_host h, hostAct_read { s with host := rest, lat := _ } (hoff.accessFault_eq_none hs),
      hostRead_not_status _ _ hne, readValue_reserved (s := { s with host := rest, lat := _ }) hoff hs]
    exact ⟨_, rfl, rfl⟩
  · intro h
    rw [step_host h, hostAct_write { s with host := rest, lat := _ } (hoff.accessFault_eq_none hs),
      hostWrite_reserved (s := { s with host := rest, lat := _ }) hoff, ite_self]
    exact ⟨_, rfl, rfl⟩

end Sys2Proof.Machine
end

section
/-! SUPPORT. XBUF as the host sees it: its words and its bytes (20_memory R72). -/

namespace Sys2Proof.Machine

/-- Four bytes as a word, the first the highest. -/
theorem append_bytes_of_word (w : Word) :
    w.extractLsb' 24 8 ++ (w.extractLsb' 16 8 ++ (w.extractLsb' 8 8 ++ w.extractLsb' 0 8)) = w := by
  have h1 := extract_join w 0 8 8
  have h2 := extract_join w 0 16 8
  have h3 := extract_join w 0 24 8
  simp only [Nat.zero_add, Nat.reduceAdd] at h1 h2 h3
  rw [h1, h2, h3]
  exact extract_all w

/-- Byte `i` of four bytes appended, the first the highest. -/
theorem extract_append_bytes (f : Nat → Byte) {i : Nat} (h : i < 4) :
    (f 3 ++ (f 2 ++ (f 1 ++ f 0))).extractLsb' (8 * i) 8 = f i := by
  have low {m n : Nat} (x : BitVec m) (y : BitVec n) {i : Nat} (h : i + 8 ≤ n) := extract_append_low x y i 8 h
  have high {m n : Nat} (x : BitVec m) (y : BitVec n) {i : Nat} (h : n ≤ i) := extract_append_high x y i 8 h
  obtain rfl | rfl | rfl | rfl : i = 0 ∨ i = 1 ∨ i = 2 ∨ i = 3 := by omega
  · rw [low _ _ (by decide), low _ _ (by decide), low _ _ (by decide), extract_all]
  · rw [low _ _ (by decide), low _ _ (by decide), high _ _ (by decide), extract_all]
  · rw [low _ _ (by decide), high _ _ (by decide), extract_all]
  · rw [high _ _ (by decide), extract_all]

/-- A word of XBUF reads as its four bytes, the lowest in bits 7..0 (20_memory R72). -/
theorem readValue_xbuf_word {s : State} {i : Nat} (h : i + 3 < s.params.maxBytes) (hb : s.busy = false) :
    s.readValue 4 (Config.xbufOffset + i) =
      s.xread (i + 3) ++ (s.xread (i + 2) ++ (s.xread (i + 1) ++ s.xread (i + 0))) := by
  unfold State.readValue
  rw [if_neg (not_register i), if_neg (by decide), byteValue_xbuf h hb, byteValue_xbuf (by omega) hb,
    byteValue_xbuf (by omega) hb, byteValue_xbuf (by omega) hb]

/-- A byte of XBUF reads as itself, zero-extended (20_memory R72). -/
theorem readValue_xbuf_byte {s : State} {i : Nat} (h : i < s.params.maxBytes) (hb : s.busy = false) :
    s.readValue 1 (Config.xbufOffset + i) = zextByte (s.xread i) := by
  unfold State.readValue
  rw [if_neg (not_register i), if_pos rfl, byteValue_xbuf h hb, Nat.add_zero]

/-- While BUSY = 0 a read of XBUF changes the read value and the host's list alone (20_memory R70). -/
theorem step_read_xbuf {s : State} {bytes i : Nat} {rest : List HostAct} (hm : s.params.maxBytes ≤ 2 ^ 28)
    (hi : i < s.params.maxBytes) (hs : bytes = 1 ∨ bytes = 4 ∧ i % 4 = 0)
    (hh : s.host = .read bytes (s.params.base + Config.xbufOffset + i) :: rest) (hb : s.busy = false) :
    step s = .next { s with busData := s.readValue bytes (Config.xbufOffset + i), host := rest } := by
  rw [Nat.add_assoc] at hh
  have hne : Config.xbufOffset + i ≠ 0x010 := fun h => not_register i (h ▸ by decide)
  rw [step_read_not_busy hh hb (accessFault_xbuf hm hi hs), if_neg hne]

/-- On an idle machine whose last command the host has seen end, a write of XBUF writes its bytes (20_memory R72). -/
theorem step_write_xbuf {s : State} {bytes i : Nat} {w : Word} {rest : List HostAct} (hm : s.params.maxBytes ≤ 2 ^ 28)
    (hi : i < s.params.maxBytes) (hs : bytes = 1 ∨ bytes = 4 ∧ i % 4 = 0)
    (h : IdleNext s (.write bytes (s.params.base + Config.xbufOffset + i) w) rest) :
    step s = .next (State.writeBytes { s with host := rest } bytes (Config.xbufOffset + i) w) := by
  rw [Nat.add_assoc] at h
  rw [step_idle h]
  obtain ⟨-, hr, hb, ha⟩ := h
  refine (hostAct_write { s with host := rest } (accessFault_xbuf hm hi hs) w).trans ?_
  rw [if_neg (by simp [hr]), State.hostWrite, if_neg (not_register i), if_pos (inXbuf_add hi),
    guardedWrite_idle (s := { s with host := rest }) hb ha]

/-- XBUF after a byte's write (20_memory R72). -/
theorem xread_writeBytes_byte {s : State} {i : Nat} (h : i < s.params.maxBytes) (w : Word) (q : Nat) :
    (s.writeBytes 1 (Config.xbufOffset + i) w).xread q = if q = i then w.extractLsb' 0 8 else s.xread q := by
  unfold State.writeBytes
  dsimp only
  rw [if_pos rfl, writeByteAt_xbuf h, xread_xwrite]

/-- XBUF after a word's write, little-endian (20_memory R72). -/
theorem xread_writeBytes_word {s : State} {i : Nat} (h : i + 3 < s.params.maxBytes) (w : Word) (q : Nat) :
    (s.writeBytes 4 (Config.xbufOffset + i) w).xread q =
      if i ≤ q ∧ q < i + 4 then w.extractLsb' (8 * (q - i)) 8 else s.xread q := by
  unfold State.writeBytes
  dsimp only
  rw [if_neg (by decide), writeByteAt_xbuf (by omega), Nat.add_assoc, writeByteAt_xbuf (by rw [xwrite_params]; omega),
    Nat.add_assoc, writeByteAt_xbuf (by simp only [xwrite_params]; omega), Nat.add_assoc,
    writeByteAt_xbuf (by simp only [xwrite_params]; omega)]
  simp only [xread_xwrite]
  by_cases hq : i ≤ q ∧ q < i + 4
  · obtain ⟨k, rfl⟩ := Nat.exists_eq_add_of_le hq.1
    rw [if_pos hq, Nat.add_sub_cancel_left]
    obtain rfl | rfl | rfl | rfl : k = 0 ∨ k = 1 ∨ k = 2 ∨ k = 3 := by omega
    all_goals simp
  · rw [if_neg hq, if_neg (by omega), if_neg (by omega), if_neg (by omega), if_neg (by omega)]

/-- The word that was written is the word that is read (20_memory R72). -/
theorem readValue_writeBytes_word {s : State} {i : Nat} (h : i + 3 < s.params.maxBytes) (hb : s.busy = false) (w : Word) :
    (s.writeBytes 4 (Config.xbufOffset + i) w).readValue 4 (Config.xbufOffset + i) = w := by
  have hx := onlyXbuf_writeBytes s 4 (Config.xbufOffset + i) w
  rw [readValue_xbuf_word (by rw [hx]; exact h) (by rw [hx]; exact hb)]
  simp only [xread_writeBytes_word h]
  rw [if_pos (by omega), if_pos (by omega), if_pos (by omega), if_pos (by omega)]
  simp only [Nat.add_sub_cancel_left]
  exact append_bytes_of_word w

/-- A read of the word just written, as the host's next access. -/
theorem step_read_writeBytes_word {s : State} {i : Nat} {rest : List HostAct} (hm : s.params.maxBytes ≤ 2 ^ 28)
    (h : i + 3 < s.params.maxBytes) (h4 : i % 4 = 0)
    (hh : s.host = .read 4 (s.params.base + Config.xbufOffset + i) :: rest) (hb : s.busy = false) (w : Word) :
    step (s.writeBytes 4 (Config.xbufOffset + i) w) =
      .next { s.writeBytes 4 (Config.xbufOffset + i) w with busData := w, host := rest } := by
  have hread := readValue_writeBytes_word h hb w
  have hx := onlyXbuf_writeBytes s 4 (Config.xbufOffset + i) w
  generalize s.writeBytes 4 (Config.xbufOffset + i) w = t at hread hx ⊢
  rw [step_read_xbuf (i := i) (by rw [hx]; exact hm) (by rw [hx]; exact Nat.lt_of_add_right_lt h) (.inr ⟨rfl, h4⟩)
    (by rw [hx]; exact hh) (by rw [hx]; exact hb), hread]

theorem xbufOffset_eq : 0x10000000 = Config.xbufOffset := rfl

/-- Settles O54: XBUF's bytes after each write, and the value of each read, by the byte they name. -/
theorem xbufWordsAreLittleEndian : Obligations.XbufWordsAreLittleEndian := by
  unfold Obligations.XbufWordsAreLittleEndian
  rw [xbufOffset_eq]
  intro s w rest hm
  refine ⟨fun j hj h => ?_, fun i hi h => ?_, fun j hj hh hb => ?_, fun i hi hh hb => ?_⟩
  · have h4 : 4 * j % 4 = 0 := Nat.mul_mod_right ..
    have hwrite := step_write_xbuf hm (by omega) (.inr ⟨rfl, h4⟩) h
    obtain ⟨-, -, hb, -⟩ := h
    let s' : State := { s with host := .read 4 (s.params.base + Config.xbufOffset + 4 * j) :: rest }
    have hread := step_read_writeBytes_word (s := s') hm hj h4 rfl hb w
    have hbytes := xread_writeBytes_word (s := s') hj w
    refine ⟨_, _, hwrite, hread, rfl, rfl, ?_, hbytes⟩
    rw [onlyXbuf_writeBytes]
  · refine ⟨_, step_write_xbuf hm hi (.inl rfl) h, ?_, xread_writeBytes_byte (s := { s with host := rest }) hi w⟩
    rw [onlyXbuf_writeBytes]
  · refine ⟨_, step_read_xbuf hm (by omega) (.inr ⟨rfl, Nat.mul_mod_right ..⟩) hh hb, rfl, fun i hi => ?_⟩
    show (s.readValue 4 _).extractLsb' _ _ = _
    rw [readValue_xbuf_word hj hb]
    exact extract_append_bytes (fun k => s.xread (4 * j + k)) hi
  · refine ⟨_, step_read_xbuf hm hi (.inl rfl) hh hb, rfl, ?_⟩
    show (s.readValue 1 _).toNat = _
    rw [readValue_xbuf_byte hi hb, zextByte, BitVec.toNat_setWidth, Nat.mod_eq_of_lt (by omega)]

end Sys2Proof.Machine
end

section
/-! SUPPORT. When an operation on a slot changes nothing: what it would write is there already (20_memory R70). -/

namespace Sys2Proof.Machine

/-- Writing the bytes that are there already changes nothing, not even the data that lists them. -/
theorem Mem.fill_eq_self {m : Mem} (h : Mem.wf m = true) {f : Nat → Byte} {start n : Nat}
    (hf : ∀ i, start ≤ i → i < start + n → m.get? i = some (f i)) : m.fill f start n = m := by
  refine Mem.ext (Mem.wf_fill h f start n) h fun i => ?_
  rw [Mem.get?_fill]
  split
  · next hi => exact (hf i hi.1 hi.2).symm
  · rfl

@[simp] theorem setSlot_slot (s : State) (k : SlotId) : s.setSlot k (s.slot k) = s := by
  simp [State.setSlot, State.slot]

theorem grow_eq_self {s : State} {k : SlotId} {n : Nat} (h : n ≤ (s.slot k).len) : s.grow k n = s := by
  unfold State.grow
  exact if_neg (Nat.not_lt.2 h)

theorem raiseSize_eq_self {s : State} {k : SlotId} {v : Nat} (h : v ≤ (s.slot k).size) : s.raiseSize k v = s := by
  simp only [State.raiseSize, max_eq_left h]
  exact setSlot_slot s k

/-- Bit `j` of byte `i` is the slot's bit `8 i + j` (20_memory R60). -/
theorem readBit_mul_add (s : State) (k : SlotId) (i : Nat) {j : Nat} (hj : j < 8) :
    s.readBit k (8 * i + j) = (s.byte k i).getLsbD j := by
  unfold State.readBit byteIndex bitOffset
  rw [show (8 * i + j) / 8 = i by omega, show (8 * i + j) % 8 = j by omega]

section
variable {maxBytes : Nat} {s : State} {k : SlotId}

/-- A backing byte has been written, so the storage lists it (10_state R33). -/
theorem get?_of_backed (h : s.Backed maxBytes k) {i : Nat} (hi : i < (s.slot k).len) :
    (s.slot k).buf.get? i = some (s.byte k i) := by
  obtain ⟨-, -, hsome⟩ := h
  obtain ⟨b, hb⟩ := Option.isSome_iff_exists.1 (hsome i hi)
  rw [State.byte, hb]
  rfl

theorem fillBytes_eq_self (h : s.Backed maxBytes k) {f : Nat → Byte} {start n : Nat} (hn : start + n ≤ (s.slot k).len)
    (hf : ∀ i, start ≤ i → i < start + n → s.byte k i = f i) : s.fillBytes k f start n = s := by
  unfold State.fillBytes
  rw [Mem.fill_eq_self h.1 fun i h1 h2 => (get?_of_backed h (by omega)).trans (congrArg some (hf i h1 h2))]
  exact setSlot_slot s k

/-- A byte's write is a fill of one byte. -/
theorem writeByte_eq_self (h : s.Backed maxBytes k) {i : Nat} {b : Byte} (hi : i < (s.slot k).len) (hb : s.byte k i = b) :
    s.writeByte k i b = s :=
  fillBytes_eq_self (n := 1) h (f := fun _ => b) hi fun j h1 h2 => by rw [show j = i by omega, hb]

theorem maskByte_eq_self (h : s.Backed maxBytes k) {i : Nat} {m : Byte} {v : Bool} (hi : i < (s.slot k).len)
    (hm : ∀ j < 8, m.getLsbD j = true → s.readBit k (8 * i + j) = v) : s.maskByte k i m v = s := by
  refine writeByte_eq_self h hi (BitVec.eq_of_getLsbD_eq fun j hj => ?_)
  rw [getLsbD_applyMask]
  split
  · next hmj => rw [← readBit_mul_add s k i hj, hm j hj hmj]
  · rfl

theorem writeBit_eq_self (h : s.Backed maxBytes k) {p : Nat} {v : Bool} (hp : p < 8 * (s.slot k).len)
    (hv : s.readBit k p = v) : s.writeBit k p v = s := by
  unfold State.writeBit byteIndex
  refine maskByte_eq_self h (by omega) fun j hj hm => ?_
  rw [getLsbD_bitMask p j hj, decide_eq_true_eq] at hm
  rw [← hv]
  congr 1
  omega

theorem construct_eq_self (h : s.Backed maxBytes k) {len size : Nat} {f : Nat → Byte} (hv : (s.slot k).valid = true)
    (hlen : (s.slot k).len = len) (hsize : (s.slot k).size = size) (hf : ∀ i < len, s.byte k i = f i) :
    s.construct k len size f = s := by
  unfold State.construct
  rw [Mem.fill_eq_self h.1 fun i _ h2 => (get?_of_backed h (by omega)).trans (congrArg some (hf i (by omega))), ← hv, ← hlen,
    ← hsize]
  exact setSlot_slot s k

/-- The bits of the interior bytes and under the boundary masks are the range's own (41_range R131). -/
theorem writeRange_eq_self (h : s.Backed maxBytes k) {start stop : Nat} {v : Bool} (hs : start < stop)
    (hlen : byteIndex (stop - 1) < (s.slot k).len) (hv : ∀ q, start ≤ q → q < stop → s.readBit k q = v) :
    writeRange k start stop v s = s := by
  have hle : byteIndex start ≤ byteIndex (stop - 1) := by unfold byteIndex; omega
  have hfill : s.fillBytes k (fun _ => fillByte v) (byteIndex start + 1) (byteIndex (stop - 1) - (byteIndex start + 1)) = s := by
    refine fillBytes_eq_self h (by omega) fun i h1 h2 => BitVec.eq_of_getLsbD_eq fun j hj => ?_
    rw [getLsbD_fillByte v j hj, ← readBit_mul_add s k i hj]
    unfold byteIndex at h1 h2
    exact hv _ (by omega) (by omega)
  unfold writeRange
  simp only [hfill]
  split
  · next heq =>
    refine maskByte_eq_self h (by omega) fun j hj hm => ?_
    rw [BitVec.getLsbD_and, getLsbD_startMask start j hj, getLsbD_endMask stop j hj, Bool.and_eq_true, decide_eq_true_eq,
      decide_eq_true_eq] at hm
    unfold byteIndex at heq ⊢
    exact hv _ (by omega) (by omega)
  · next hne =>
    have hstart : s.maskByte k (byteIndex start) (startMask start) v = s := by
      refine maskByte_eq_self h (by omega) fun j hj hm => ?_
      rw [getLsbD_startMask start j hj, decide_eq_true_eq] at hm
      unfold byteIndex at hne hle ⊢
      exact hv _ (by omega) (by omega)
    rw [hstart]
    refine maskByte_eq_self h hlen fun j hj hm => ?_
    rw [getLsbD_endMask stop j hj, decide_eq_true_eq] at hm
    unfold byteIndex at hne hle ⊢
    exact hv _ (by omega) (by omega)

end

/-! ## The bits after a fill, a raised size and a range's write -/

@[simp] theorem readBit_raiseSize (s : State) (k : SlotId) (v p : Nat) : (s.raiseSize k v).readBit k p = s.readBit k p := by
  unfold State.readBit
  rw [byte_raiseSize]

theorem readBit_fillBytes (s : State) (k : SlotId) (f : Nat → Byte) (i n p : Nat) :
    (s.fillBytes k f i n).readBit k p =
      if i ≤ p / 8 ∧ p / 8 < i + n then (f (p / 8)).getLsbD (p % 8) else s.readBit k p := by
  unfold State.readBit byteIndex bitOffset
  rw [byte_fillBytes]
  split <;> rfl

/-- The bits after a range's write: those of the range, and no other (41_range R131). -/
theorem readBit_writeRange (k : SlotId) {start stop : Nat} (hs : start < stop) (v : Bool) (s : State) (q : Nat) :
    (writeRange k start stop v s).readBit k q = if start ≤ q ∧ q < stop then v else s.readBit k q := by
  have hq : q % 8 < 8 := Nat.mod_lt _ (by decide)
  unfold writeRange byteIndex
  dsimp only
  split
  · next heq =>
    simp only [readBit_maskByte, readBit_fillBytes, BitVec.getLsbD_and, getLsbD_startMask start _ hq, getLsbD_endMask stop _ hq,
      getLsbD_fillByte v _ hq, Bool.and_eq_true, decide_eq_true_eq, ← ite_or]
    exact if_congr (by omega) rfl rfl
  · next hne =>
    simp only [readBit_maskByte, readBit_fillBytes, getLsbD_startMask start _ hq, getLsbD_endMask stop _ hq,
      getLsbD_fillByte v _ hq, decide_eq_true_eq, ← ite_or]
    exact if_congr (by omega) rfl rfl

end Sys2Proof.Machine
end

section
/-! SUPPORT. What a command does to the slots: no slot but the receiver changes, and lengths, sizes and validity last
(20_memory R67, R82). -/

namespace Sys2Proof.Machine

/-- An effect phase changes no slot but the receiver (20_memory R82). -/
theorem slot_effectOf_ne (i : Instr) (s : State) {k : SlotId} (hk : k ≠ i.receiver) : (effectOf i s).slot k = s.slot k := by
  rcases effectOf_cases i s with ⟨-, hne⟩ | ⟨w, he, -⟩ | ⟨m, w, he, -⟩
  · exact hne k hk
  · rw [he]
    rfl
  · rw [he]
    rfl

/-- Settles O35: an error changes no slot, and an effect phase changes the receiver's at most. -/
theorem otherSlotsAreUntouched : Obligations.OtherSlotsAreUntouched := by
  intro i s t h k hk
  rcases exec_cases h with ⟨-, rfl⟩ | ⟨-, rfl⟩
  · exact slot_effectOf_ne i s hk
  · rfl

/-- The slot `c'` holds the container of `c`, no shorter than it was (20_memory R67). -/
def Slot.Grows (c c' : Slot) : Prop := c.len ≤ c'.len ∧ c.size ≤ c'.size ∧ c'.valid = c.valid

theorem Slot.Grows.refl (c : Slot) : c.Grows c := ⟨le_rfl, le_rfl, rfl⟩

/-- No effect phase but a constructor's shortens a slot (20_memory R67). -/
theorem grows_effectOf (i : Instr) (s : State) (k : SlotId) (hi : i.isConstructor = true → k ≠ i.receiver) :
    (s.slot k).Grows ((effectOf i s).slot k) := by
  by_cases hk : k = i.receiver
  · subst hk
    cases i with
    | get d => exact .refl _
    | set d v => simp [Slot.Grows, effectOf, effectSet, writeBitGrowing, Instr.receiver]
    | setbo d v => simp [Slot.Grows, effectOf, effectSetbo, writeBitGrowing, Instr.receiver]
    | getb d => exact .refl _
    | setb d imm => simp [Slot.Grows, effectOf, effectSetb, Instr.receiver]
    | setr d v => simp [Slot.Grows, effectOf, effectSetr, Instr.receiver]
    | setrb d imm => simp [Slot.Grows, effectOf, effectSetrb, Instr.receiver]
    | getrb d => exact .refl _
    | and d o => simp [Slot.Grows, effectOf, effectLogic, Instr.receiver]
    | or d o => simp [Slot.Grows, effectOf, effectLogic, Instr.receiver]
    | xor d o => simp [Slot.Grows, effectOf, effectLogic, Instr.receiver]
    | nor d o => simp [Slot.Grows, effectOf, effectLogic, Instr.receiver]
    | xnor d o => simp [Slot.Grows, effectOf, effectLogic, Instr.receiver]
    | nand d o => simp [Slot.Grows, effectOf, effectLogic, Instr.receiver]
    | not d => simp [Slot.Grows, effectOf, effectNot, Instr.receiver]
    | new d => exact absurd rfl (hi rfl)
    | ldint d w => exact absurd rfl (hi rfl)
    | ldbytes d => exact absurd rfl (hi rfl)
    | clone d o => exact absurd rfl (hi rfl)
    | getsize d => exact .refl _
    | getlen d => exact .refl _
  · rw [slot_effectOf_ne i s hk]
    exact .refl _

/-- Settles O36: an error changes no slot, and an effect phase that is not the slot's constructor lets it grow at most. -/
theorem lengthsNeverShrink : Obligations.LengthsNeverShrink := by
  intro i s t k h hi
  rcases exec_cases h with ⟨-, rfl⟩ | ⟨-, rfl⟩
  · exact grows_effectOf i s k hi
  · exact Slot.Grows.refl _

end Sys2Proof.Machine
end

section
/-! SUPPORT. A command issued twice: its check phase passes again and its effect phase finds its work done (20_memory R70). -/

namespace Sys2Proof.Machine

/-! ## The check phase, again -/

theorem checkGet_eq_ok (d : SlotId) (s : State) : checkGet d s = .ok ↔
    (s.slot d).valid = true ∧ 0 ≤ sint32 s.a ∧ sint32 s.a < (s.slot d).size := by
  simp [checkGet, firstError_cons_eq_ok]

theorem checkGetb_eq_ok (d : SlotId) (s : State) : checkGetb d s = .ok ↔
    (s.slot d).valid = true ∧ 0 ≤ sint32 s.a ∧ sint32 s.a < (s.slot d).len := by
  simp [checkGetb, firstError_cons_eq_ok]

theorem checkLogic_eq_ok (d o : SlotId) (s : State) : checkLogic d o s = .ok ↔
    (s.slot d).valid = true ∧ (s.slot o).valid = true := by
  simp [checkLogic, firstError_cons_eq_ok]

theorem checkNot_eq_ok (d : SlotId) (s : State) : checkNot d s = .ok ↔ (s.slot d).valid = true := by
  simp [checkNot, firstError_cons_eq_ok]

theorem checkClone_eq_ok (o : SlotId) (s : State) : checkClone o s = .ok ↔ (s.slot o).valid = true := by
  simp [checkClone, firstError_cons_eq_ok]

/-- A check phase does not read STATUS. -/
theorem checkOf_complete (i : Instr) (c : ErrCode) (s : State) : checkOf i (s.complete c) = checkOf i s := by
  cases i <;> rfl

@[simp] theorem effectOf_a (i : Instr) (s : State) : (effectOf i s).a = s.a := by rw [effectOf_frame]

@[simp] theorem effectOf_b (i : Instr) (s : State) : (effectOf i s).b = s.b := by rw [effectOf_frame]

@[simp] theorem effectOf_params (i : Instr) (s : State) : (effectOf i s).params = s.params := by rw [effectOf_frame]

/-- The check phase of a command that is no constructor passes again when the operands stay and the slots grow at most. -/
theorem checkOf_of_grows {i : Instr} {s t : State} (hi : i.isConstructor = false) (ha : t.a = s.a) (hb : t.b = s.b)
    (hp : t.params = s.params) (hgrow : ∀ k, (s.slot k).Grows (t.slot k)) (hc : checkOf i s = .ok) : checkOf i t = .ok := by
  have hvalid (k : SlotId) : (t.slot k).valid = (s.slot k).valid :=
    let ⟨_, _, h⟩ := hgrow k
    h
  have logic (d o : SlotId) (h : checkLogic d o s = .ok) : checkLogic d o t = .ok := by
    simpa only [checkLogic, State.noContainer, hvalid] using h
  cases i with
  | get d =>
    obtain ⟨hv, h0, hlt⟩ := (checkGet_eq_ok d s).1 hc
    obtain ⟨-, hsize, -⟩ := hgrow d
    exact (checkGet_eq_ok d t).2 ⟨(hvalid d).trans hv, by rwa [ha], by rw [ha]; omega⟩
  | set d v => simpa only [checkOf, checkSet, State.noContainer, hvalid, ha, hp] using hc
  | setbo d v => simpa only [checkOf, checkSetbo, State.noContainer, hvalid, ha, hb, hp] using hc
  | getb d =>
    obtain ⟨hv, h0, hlt⟩ := (checkGetb_eq_ok d s).1 hc
    obtain ⟨hlen, -, -⟩ := hgrow d
    exact (checkGetb_eq_ok d t).2 ⟨(hvalid d).trans hv, by rwa [ha], by rw [ha]; omega⟩
  | setb d imm => simpa only [checkOf, checkSetb, State.noContainer, hvalid, ha, hp] using hc
  | setr d v => simpa only [checkOf, checkSetr, badRange, State.noContainer, hvalid, ha, hb, hp] using hc
  | setrb d imm => simpa only [checkOf, checkSetrb, badRange, State.noContainer, hvalid, ha, hb, hp] using hc
  | getrb d =>
    obtain ⟨hv, hrange, hle⟩ := (checkGetrb_eq_ok d s).1 hc
    obtain ⟨hlen, -, -⟩ := hgrow d
    exact (checkGetrb_eq_ok d t).2 ⟨(hvalid d).trans hv, by rwa [ha, hb], by rw [hb]; omega⟩
  | and d o => exact logic d o hc
  | or d o => exact logic d o hc
  | xor d o => exact logic d o hc
  | nor d o => exact logic d o hc
  | xnor d o => exact logic d o hc
  | nand d o => exact logic d o hc
  | not d => simpa only [checkOf, checkNot, State.noContainer, hvalid] using hc
  | new d => simp [Instr.isConstructor] at hi
  | ldint d w => simp [Instr.isConstructor] at hi
  | ldbytes d => simp [Instr.isConstructor] at hi
  | clone d o => simp [Instr.isConstructor] at hi
  | getsize d => simpa only [checkOf, checkQuery, State.noContainer, hvalid] using hc
  | getlen d => simpa only [checkOf, checkQuery, State.noContainer, hvalid] using hc

/-- CLONE leaves its source as it was, also when it is the destination (43_codec R174). -/
theorem slot_effectClone_other (d o : SlotId) (s : State) : (effectClone d o s).slot o = s.slot o := by
  unfold effectClone
  split
  · rfl
  · next hne => exact slot_construct_ne s _ _ _ (Ne.symm hne)

/-- A check phase that passed passes again after the command's effect. -/
theorem checkOf_effectOf {i : Instr} {s : State} (hc : checkOf i s = .ok) : checkOf i (effectOf i s) = .ok := by
  by_cases hi : i.isConstructor = true
  · cases i with
    | new d => exact hc
    | ldint d w => rfl
    | ldbytes d => exact hc
    | clone d o =>
      refine (checkClone_eq_ok o _).2 ?_
      rw [show (effectOf (.clone d o) s).slot o = s.slot o from slot_effectClone_other d o s]
      exact (checkClone_eq_ok o s).1 hc
    | _ => simp [Instr.isConstructor] at hi
  · exact checkOf_of_grows (by simpa using hi) (effectOf_a i s) (effectOf_b i s) (effectOf_params i s)
      (fun k => grows_effectOf i s k fun h => absurd h hi) hc

/-! ## The effect phase, again -/

/-! No operation on a slot reads STATUS. -/

theorem writeByte_complete (s : State) (c : ErrCode) (k : SlotId) (i : Nat) (b : Byte) :
    (s.complete c).writeByte k i b = (s.writeByte k i b).complete c := rfl

theorem fillBytes_complete (s : State) (c : ErrCode) (k : SlotId) (f : Nat → Byte) (i n : Nat) :
    (s.complete c).fillBytes k f i n = (s.fillBytes k f i n).complete c := rfl

theorem maskByte_complete (s : State) (c : ErrCode) (k : SlotId) (i : Nat) (m : Byte) (v : Bool) :
    (s.complete c).maskByte k i m v = (s.maskByte k i m v).complete c := rfl

theorem raiseSize_complete (s : State) (c : ErrCode) (k : SlotId) (v : Nat) :
    (s.complete c).raiseSize k v = (s.raiseSize k v).complete c := rfl

theorem grow_complete (s : State) (c : ErrCode) (k : SlotId) (n : Nat) : (s.complete c).grow k n = (s.grow k n).complete c := by
  unfold State.grow
  rw [slot_complete]
  dsimp only
  split <;> rfl

theorem writeRange_complete (d : SlotId) (start stop : Nat) (v : Bool) (s : State) (c : ErrCode) :
    writeRange d start stop v (s.complete c) = (writeRange d start stop v s).complete c := by
  unfold writeRange
  dsimp only
  split <;> rfl

theorem writeBitGrowing_complete (d : SlotId) (p : Nat) (v : Bool) (s : State) (c : ErrCode) :
    writeBitGrowing d p v (s.complete c) = (writeBitGrowing d p v s).complete c := by
  simp only [writeBitGrowing, State.writeBit, grow_complete, maskByte_complete, raiseSize_complete]

/-- An effect phase does not read STATUS. -/
theorem effectOf_complete (i : Instr) (c : ErrCode) (s : State) : effectOf i (s.complete c) = (effectOf i s).complete c := by
  cases i with
  | set d v => exact writeBitGrowing_complete ..
  | setbo d v => exact writeBitGrowing_complete ..
  | setb d imm =>
    simp only [effectOf, effectSetb, complete_a, grow_complete, writeByte_complete, raiseSize_complete]
  | setr d v =>
    simp only [effectOf, effectSetr, complete_a, complete_b, grow_complete, raiseSize_complete, writeRange_complete]
  | setrb d imm =>
    simp only [effectOf, effectSetrb, complete_a, complete_b, grow_complete, fillBytes_complete, raiseSize_complete]
  | clone d o =>
    simp only [effectOf, effectClone]
    split <;> rfl
  | _ => rfl

/-- Completing twice with one code is completing once: ERRSEEN is sticky (60_exceptions R206). -/
theorem complete_complete (s : State) (c : ErrCode) : (s.complete c).complete c = s.complete c := by
  simp [State.complete]

end Sys2Proof.Machine
end

section
/-! SUPPORT. Every effect phase that 20_memory R70 lists finds, the second time, what it would write. -/

namespace Sys2Proof.Machine

theorem OnlySlot.slot {d : SlotId} {s t : State} (h : OnlySlot d s t) {k : SlotId} (hk : k ≠ d) : t.slot k = s.slot k :=
  h.2 k hk

theorem OnlySlot.byte {d : SlotId} {s t : State} (h : OnlySlot d s t) {k : SlotId} (hk : k ≠ d) : t.byte k = s.byte k := by
  obtain ⟨hrest, hslot⟩ := h
  have hepoch : t.epoch = s.epoch := by rw [hrest]
  unfold State.byte
  rw [hslot k hk, hepoch]

section
variable {maxBytes : Nat} {s : State} {d : SlotId}

theorem writeBitGrowing_twice {p : Nat} {v : Bool} (h : (writeBitGrowing d p v s).Backed maxBytes d) :
    writeBitGrowing d p v (writeBitGrowing d p v s) = writeBitGrowing d p v s := by
  have hlen : byteIndex p + 1 ≤ ((writeBitGrowing d p v s).slot d).len := by simp [writeBitGrowing]
  have hsize : p + 1 ≤ ((writeBitGrowing d p v s).slot d).size := by simp [writeBitGrowing]
  have hbit : (writeBitGrowing d p v s).readBit d p = v := by simp [writeBitGrowing, readBit_writeBit]
  generalize writeBitGrowing d p v s = t at *
  unfold writeBitGrowing
  rw [grow_eq_self hlen, writeBit_eq_self h (by unfold byteIndex at hlen; omega) hbit, raiseSize_eq_self hsize]

theorem effectSetb_twice {imm : Byte} (h : (effectSetb d imm s).Backed maxBytes d) :
    effectSetb d imm (effectSetb d imm s) = effectSetb d imm s := by
  have ha : (effectSetb d imm s).a = s.a := effectOf_a (.setb d imm) s
  have hlen : (sint32 s.a).toNat + 1 ≤ ((effectSetb d imm s).slot d).len := by simp [effectSetb]
  have hsize : 8 * ((sint32 s.a).toNat + 1) ≤ ((effectSetb d imm s).slot d).size := by simp [effectSetb]
  have hbyte : (effectSetb d imm s).byte d (sint32 s.a).toNat = imm := by simp [effectSetb, byte_writeByte]
  generalize effectSetb d imm s = t at *
  unfold effectSetb
  dsimp only
  rw [ha, grow_eq_self hlen, writeByte_eq_self h hlen hbyte, raiseSize_eq_self hsize]

theorem effectSetr_twice {v : Bool} (h : (effectSetr d v s).Backed maxBytes d) (hs : 0 ≤ sint32 s.a ∧ sint32 s.a < sint32 s.b) :
    effectSetr d v (effectSetr d v s) = effectSetr d v s := by
  have hlt : (sint32 s.a).toNat < (sint32 s.b).toNat := by omega
  have ha : (effectSetr d v s).a = s.a := effectOf_a (.setr d v) s
  have hb : (effectSetr d v s).b = s.b := effectOf_b (.setr d v) s
  have hlen : byteIndex ((sint32 s.b).toNat - 1) + 1 ≤ ((effectSetr d v s).slot d).len := by simp [effectSetr]
  have hsize : (sint32 s.b).toNat ≤ ((effectSetr d v s).slot d).size := by simp [effectSetr]
  have hbits (q : Nat) (h1 : (sint32 s.a).toNat ≤ q) (h2 : q < (sint32 s.b).toNat) : (effectSetr d v s).readBit d q = v := by
    rw [effectSetr, readBit_writeRange d hlt, if_pos ⟨h1, h2⟩]
  generalize effectSetr d v s = t at *
  unfold effectSetr
  dsimp only
  rw [ha, hb, grow_eq_self hlen, raiseSize_eq_self hsize, writeRange_eq_self h hlt hlen hbits]

theorem effectSetrb_twice {imm : Byte} (h : (effectSetrb d imm s).Backed maxBytes d)
    (hs : 0 ≤ sint32 s.a ∧ sint32 s.a < sint32 s.b) : effectSetrb d imm (effectSetrb d imm s) = effectSetrb d imm s := by
  have ha : (effectSetrb d imm s).a = s.a := effectOf_a (.setrb d imm) s
  have hb : (effectSetrb d imm s).b = s.b := effectOf_b (.setrb d imm) s
  have hlen : (sint32 s.b).toNat ≤ ((effectSetrb d imm s).slot d).len := by simp [effectSetrb]
  have hsize : 8 * (sint32 s.b).toNat ≤ ((effectSetrb d imm s).slot d).size := by simp [effectSetrb]
  have hbytes (i : Nat) (h1 : (sint32 s.a).toNat ≤ i)
      (h2 : i < (sint32 s.a).toNat + ((sint32 s.b).toNat - (sint32 s.a).toNat)) : (effectSetrb d imm s).byte d i = imm := by
    rw [effectSetrb, byte_raiseSize, byte_fillBytes, if_pos ⟨h1, h2⟩]
  generalize effectSetrb d imm s = t at *
  unfold effectSetrb
  dsimp only
  rw [ha, hb, grow_eq_self hlen, fillBytes_eq_self h (by omega) hbytes, raiseSize_eq_self hsize]

theorem effectGetrb_twice (h : s.XbufInv) : effectGetrb d (effectGetrb d s) = effectGetrb d s := by
  have hfill (f : Nat → Byte) (n : Nat) : (s.xbuf.fill f 0 n).fill f 0 n = s.xbuf.fill f 0 n :=
    Mem.fill_eq_self (Mem.wf_fill h.1 f 0 n) fun i h1 h2 => by rw [Mem.get?_fill, if_pos ⟨h1, h2⟩]
  exact congrArg (fun m => { effectGetrb d s with xbuf := m }) (hfill _ _)

theorem construct_twice {len size : Nat} {f : Nat → Byte} (h : (s.construct d len size f).Backed maxBytes d) :
    (s.construct d len size f).construct d len size f = s.construct d len size f := by
  have hslot := slot_construct_self s d len size f
  exact construct_eq_self h (by rw [hslot]) (by rw [hslot]) (by rw [hslot]) (byte_construct s d len size f)

theorem effectClone_twice {o : SlotId} (h : (effectClone d o s).Backed maxBytes d) :
    effectClone d o (effectClone d o s) = effectClone d o s := by
  unfold effectClone at h ⊢
  split
  · rfl
  · next hne =>
    rw [if_neg hne] at h
    have only := onlySlot_construct s d (s.slot o).len (s.slot o).size (s.byte o)
    rw [only.slot (Ne.symm hne), only.byte (Ne.symm hne)]
    exact construct_twice h

/-- A bytewise operation that absorbs its own result, from the same operand or from itself. -/
def Absorbs (f : Byte → Byte → Byte) : Prop := ∀ x y, f (f x y) y = f x y ∧ f (f x y) (f x y) = f x y

theorem absorbs_byteAnd : Absorbs byteAnd := fun x y => by
  unfold byteAnd
  exact ⟨by rw [BitVec.and_assoc, BitVec.and_self], BitVec.and_self⟩

theorem absorbs_byteOr : Absorbs byteOr := fun x y => by
  unfold byteOr
  exact ⟨by rw [BitVec.or_assoc, BitVec.or_self], BitVec.or_self⟩

theorem effectLogic_twice {f : Byte → Byte → Byte} (hf : Absorbs f) {o : SlotId} (h : (effectLogic f d o s).Backed maxBytes d) :
    effectLogic f d o (effectLogic f d o s) = effectLogic f d o s := by
  have only : OnlySlot d s (effectLogic f d o s) := onlySlot_fillBytes ..
  have hlen : ((effectLogic f d o s).slot d).len = (s.slot d).len := len_fillBytes ..
  refine fillBytes_eq_self h (Nat.zero_add _).le fun i _ hi => ?_
  have hbyte : (effectLogic f d o s).byte d i = f (s.byte d i) (s.opByte o i) := by
    rw [effectLogic, byte_fillBytes, if_pos ⟨Nat.zero_le i, by omega⟩]
  obtain ⟨hsame, hself⟩ := hf (s.byte d i) (s.opByte o i)
  by_cases ho : o = d
  · subst ho
    rw [State.opByte, if_pos (by omega), hbyte, hself]
  · have hop : (effectLogic f d o s).opByte o i = s.opByte o i := by
      unfold State.opByte
      rw [only.slot ho, only.byte ho]
    rw [hop, hbyte, hsame]

end

/-- The effect of a command that R70 lists, done twice, is the effect done once. -/
theorem effectOf_twice {i : Instr} {s : State} (hp : s.params.wf) (h : ∀ k, Slot.Inv s.params.maxBytes (s.slot k))
    (hx : s.XbufInv) (hi : repeatable i = true) (hc : checkOf i s = .ok) :
    effectOf i (effectOf i s) = effectOf i s := by
  have hb : (effectOf i s).Backed s.params.maxBytes i.receiver := backed_of_slotInv (slotInv_effectOf hp h hc)
  have ha := effectOf_a i s
  have hb' := effectOf_b i s
  cases i with
  | get d => rfl
  | set d v =>
    show writeBitGrowing d (sint32 (effectOf _ s).a).toNat v _ = _
    rw [ha]
    exact writeBitGrowing_twice hb
  | setbo d v =>
    show writeBitGrowing d (8 * (sint32 (effectOf _ s).a).toNat + (sint32 (effectOf _ s).b).toNat) v _ = _
    rw [ha, hb']
    exact writeBitGrowing_twice hb
  | getb d => rfl
  | setb d imm => exact effectSetb_twice hb
  | setr d v =>
    obtain ⟨-, hrange, -⟩ := (checkSetr_eq_ok d s).1 hc
    exact effectSetr_twice hb hrange
  | setrb d imm =>
    obtain ⟨-, hrange, -⟩ := (checkSetrb_eq_ok d s).1 hc
    exact effectSetrb_twice hb hrange
  | getrb d => exact effectGetrb_twice hx
  | and d o => exact effectLogic_twice absorbs_byteAnd hb
  | or d o => exact effectLogic_twice absorbs_byteOr hb
  | new d => exact construct_twice hb
  | ldint d w => exact construct_twice hb
  | ldbytes d => exact construct_twice hb
  | clone d o => exact effectClone_twice hb
  | getsize d => rfl
  | getlen d => rfl
  | _ => simp [repeatable] at hi

/-- Settles O37: a check that failed fails again with the same code; one that passed passes again, and the effect is done. -/
theorem repeatedCommandsChangeNothing : Obligations.RepeatedCommandsChangeNothing := by
  intro i s t h hi ht
  obtain ⟨hp, hslot, -, hx, -⟩ := h
  rcases exec_cases ht with ⟨hc, rfl⟩ | ⟨hc, rfl⟩
  · rw [exec_eq, checkOf_complete, if_pos (checkOf_effectOf hc), effectOf_complete, effectOf_twice hp hslot hx hi hc,
      complete_complete]
  · rw [exec_eq, checkOf_complete, if_neg hc, complete_complete]

end Sys2Proof.Machine
end

section
/-! SUPPORT. A bit and its byte (20_memory R60, R63), and the logic commands on one slot named twice (20_memory R81). -/

namespace Sys2Proof.Machine

/-- A command whose check passed answers its effect, with code OK. -/
theorem exec_of_check {i : Instr} {s : State} (hc : checkOf i s = .ok) : exec i s = .next ((effectOf i s).complete .ok) := by
  rw [exec_eq, if_pos hc]

/-- A truth value as a word is a byte's bit, shifted down to bit 0 (00_scope R13). -/
theorem zextBool_getLsbD (b : Byte) (j : Nat) : zextBool (b.getLsbD j) = (zextByte b >>> j) &&& 1 := by
  have hbit : (zextByte b >>> j).getLsbD 0 = b.getLsbD j := by
    rw [BitVec.getLsbD_ushiftRight, zextByte, BitVec.getLsbD_setWidth, Nat.add_zero]
    rcases Nat.lt_or_ge j 32 with hj | hj
    · simp [hj]
    · rw [BitVec.getLsbD_of_ge b j (by omega), Bool.and_false]
  rw [show (1 : Word) = 1#32 from rfl, BitVec.and_one_eq_setWidth_ofBool_getLsbD, hbit]
  cases b.getLsbD j <;> rfl

/-- Settles O18: both commands read the backing byte `A div 8`, which GETB may since the size needs it (10_state R31). -/
theorem getAgreesWithGetb : Obligations.GetAgreesWithGetb := by
  intro d s x hinv hv h0 hlt hx
  obtain ⟨-, hslot, -⟩ := hinv
  obtain ⟨-, -, hlen, -⟩ := hslot d
  unfold ceil8 at hlen
  have hget : checkOf (.get d) s = .ok := (checkGet_eq_ok d s).2 ⟨hv, h0, hlt⟩
  have hgetb : checkOf (.getb d) { s with a := x } = .ok := by
    refine (checkGetb_eq_ok d { s with a := x }).2 ⟨hv, ?_, ?_⟩
    · show 0 ≤ sint32 x
      omega
    · show sint32 x < (s.slot d).len
      omega
  refine ⟨_, _, exec_of_check hget, exec_of_check hgetb, ?_⟩
  show zextBool (s.readBit d (sint32 s.a).toNat) = (zextByte (s.byte d (sint32 x).toNat) >>> _) &&& 1
  rw [State.readBit, zextBool_getLsbD, byteIndex, bitOffset, show (sint32 x).toNat = (sint32 s.a).toNat / 8 by omega]

/-! ## One slot named twice -/

/-- Completion with code OK sets BUSY and the code alone (60_exceptions R206). -/
theorem complete_ok (s : State) : s.complete .ok = { s with busy := false, err := .ok } := by simp [State.complete]

/-- A completed effect on one slot is what `WroteSlot` says. -/
theorem OnlySlot.wroteSlot {d : SlotId} {s t : State} (h : OnlySlot d s t) : WroteSlot d s (t.complete .ok) := by
  obtain ⟨hrest, hslot⟩ := h
  refine ⟨?_, hslot⟩
  rw [complete_ok, hrest]

/-- A fill depends on the bytes that it writes alone. -/
theorem Mem.fill_congr (m : Mem) {f g : Nat → Byte} {start n : Nat} (h : ∀ i, start ≤ i → i < start + n → f i = g i) :
    m.fill f start n = m.fill g start n := by
  induction n with
  | zero => rfl
  | succ n ih =>
    rw [Mem.fill, Mem.fill, ih fun i h1 h2 => h i h1 (by omega), h (start + n) (by omega) (by omega)]

/-- With one slot named twice the operand byte is the receiver's own (20_memory R81). -/
theorem effectLogic_self (f : Byte → Byte → Byte) (d : SlotId) (s : State) :
    effectLogic f d d s = s.fillBytes d (fun i => f (s.byte d i) (s.byte d i)) 0 (s.slot d).len := by
  unfold effectLogic State.fillBytes
  rw [Mem.fill_congr (s.slot d).buf fun i _ hi => ?_]
  rw [State.opByte, if_pos (by omega)]

theorem byte_effectLogic_self (f : Byte → Byte → Byte) (d : SlotId) (s : State) {i : Nat} (hi : i < (s.slot d).len) :
    (effectLogic f d d s).byte d i = f (s.byte d i) (s.byte d i) := by
  rw [effectLogic_self, byte_fillBytes, if_pos ⟨Nat.zero_le i, by omega⟩]

/-- An operation that gives a byte back when both operands are that byte changes nothing. -/
theorem effectLogic_self_eq {maxBytes : Nat} {f : Byte → Byte → Byte} (hf : ∀ x, f x x = x) {d : SlotId} {s : State}
    (h : s.Backed maxBytes d) : effectLogic f d d s = s := by
  rw [effectLogic_self]
  exact fillBytes_eq_self h (Nat.zero_add _).le fun i _ _ => (hf _).symm

/-- An operation that complements a byte when both operands are that byte is NOT (42_logic R156, R158). -/
theorem effectLogic_self_eq_not {f : Byte → Byte → Byte} (hf : ∀ x, f x x = ~~~x) (d : SlotId) (s : State) :
    effectLogic f d d s = effectNot d s := by
  rw [effectLogic_self, effectNot]
  simp only [hf]

/-- Settles O26: the six operations on a byte and itself. -/
theorem logicOfASlotWithItself : Obligations.LogicOfASlotWithItself := by
  intro d s hinv hv
  obtain ⟨-, hslot, -⟩ := hinv
  have hb : s.Backed s.params.maxBytes d := backed_of_slotInv (hslot d)
  have hc : checkLogic d d s = .ok := (checkLogic_eq_ok d d s).2 ⟨hv, hv⟩
  have hnot : checkOf (.not d) s = .ok := (checkNot_eq_ok d s).2 hv
  have wrote (f : Byte → Byte → Byte) : WroteSlot d s ((effectLogic f d d s).complete .ok) :=
    (onlySlot_fillBytes ..).wroteSlot
  refine ⟨?_, ?_, ⟨_, exec_of_check hc, wrote byteXor, fun i hi => ?_⟩, ⟨_, exec_of_check hc, wrote byteXnor, fun i hi => ?_⟩,
    ?_, ?_⟩
  · have he : effectLogic byteAnd d d s = s := effectLogic_self_eq (fun _ => BitVec.and_self) hb
    rw [exec_of_check (i := .and d d) hc, effectOf, he, complete_ok]
  · have he : effectLogic byteOr d d s = s := effectLogic_self_eq (fun _ => BitVec.or_self) hb
    rw [exec_of_check (i := .or d d) hc, effectOf, he, complete_ok]
  · exact (byte_effectLogic_self byteXor d s hi).trans BitVec.xor_self
  · exact (byte_effectLogic_self byteXnor d s hi).trans (congrArg (~~~·) BitVec.xor_self)
  · have he : effectLogic byteNor d d s = effectNot d s :=
      effectLogic_self_eq_not (fun x => show ~~~(x ||| x) = ~~~x by rw [BitVec.or_self]) d s
    rw [exec_of_check (i := .nor d d) hc, exec_of_check hnot, effectOf, he, effectOf]
  · have he : effectLogic byteNand d d s = effectNot d s :=
      effectLogic_self_eq_not (fun x => show ~~~(x &&& x) = ~~~x by rw [BitVec.and_self]) d s
    rw [exec_of_check (i := .nand d d) hc, exec_of_check hnot, effectOf, he, effectOf]

end Sys2Proof.Machine
end

section
/-! SUPPORT. The decoder against the encoder (30_encoding R86, R92, R98): OPC gives a command's kind and the other fields its
operands, so a command with its fields is one word. -/

namespace Sys2Proof

@[simp] theorem bitValue_valueBit (v : Bool) : bitValue (valueBit v) = v := by cases v <;> rfl

@[simp] theorem valueBit_bitValue (v : BitVec 1) : valueBit (bitValue v) = v := by revert v; decide

@[simp] theorem IntWidth.ofCode_code (w : IntWidth) : IntWidth.ofCode w.code = w := by cases w <;> rfl

@[simp] theorem IntWidth.code_ofCode (w : BitVec 2) : (IntWidth.ofCode w).code = w := by revert w; decide

/-! ## A kind of command and the fields of a word -/

/-- The command of `i`'s kind whose operands are the fields (30_encoding R94). -/
def Instr.withFields (i : Instr) (f : Fields) : Instr :=
  match i with
  | .get _ => .get f.d
  | .set _ _ => .set f.d (bitValue f.v)
  | .setbo _ _ => .setbo f.d (bitValue f.v)
  | .getb _ => .getb f.d
  | .setb _ _ => .setb f.d f.imm
  | .setr _ _ => .setr f.d (bitValue f.v)
  | .setrb _ _ => .setrb f.d f.imm
  | .getrb _ => .getrb f.d
  | .and _ _ => .and f.d f.s
  | .or _ _ => .or f.d f.s
  | .xor _ _ => .xor f.d f.s
  | .nor _ _ => .nor f.d f.s
  | .xnor _ _ => .xnor f.d f.s
  | .nand _ _ => .nand f.d f.s
  | .not _ => .not f.d
  | .new _ => .new f.d
  | .ldint _ _ => .ldint f.d (IntWidth.ofCode f.w)
  | .ldbytes _ => .ldbytes f.d
  | .clone _ _ => .clone f.d f.s
  | .getsize _ => .getsize f.d
  | .getlen _ => .getlen f.d

section
variable (i : Instr) (f : Fields)

@[simp] theorem opcode_withFields : (i.withFields f).opcode = i.opcode := by cases i <;> rfl

@[simp] theorem receiver_withFields : (i.withFields f).receiver = f.d := by cases i <;> rfl

@[simp] theorem other_withFields : (i.withFields f).other = i.other.map fun _ => f.s := by cases i <;> rfl

@[simp] theorem valueField_withFields : (i.withFields f).valueField = if i.usesV then f.v else 0 := by
  cases i <;> simp [Instr.withFields, Instr.valueField, Instr.usesV]

@[simp] theorem widthField_withFields : (i.withFields f).widthField = if i.usesW then f.w else 0 := by
  cases i <;> simp [Instr.withFields, Instr.widthField, Instr.usesW]

@[simp] theorem immField_withFields : (i.withFields f).immField = if i.usesImm then f.imm else 0 := by
  cases i <;> rfl

/-- Which fields are used depends on the kind alone. -/
@[simp] theorem unusedNonzero_withFields : f.unusedNonzero (i.withFields f) = f.unusedNonzero i := by cases i <;> rfl

end

/-- A command's own fields give it back: every operand survives its field (30_encoding R87 to R90). -/
@[simp] theorem withFields_fields (i : Instr) : i.withFields i.fields = i := by
  cases i <;> simp [Instr.withFields, Instr.fields, Instr.receiver, Instr.other, Instr.valueField, Instr.widthField,
    Instr.immField]

theorem Fields.unusedNonzero_eq_false (f : Fields) (i : Instr) : f.unusedNonzero i = false ↔
    (i.other.isSome = false → f.s = 0) ∧ (i.usesV = false → f.v = 0) ∧ (i.usesW = false → f.w = 0) ∧
      (i.usesImm = false → f.imm = 0) := by
  simp only [Fields.unusedNonzero, Bool.or_eq_false_iff, Bool.and_eq_false_imp, Bool.not_eq_true', bne_eq_false_iff_eq,
    and_assoc, BitVec.ofNat_eq_ofNat]

/-- An encoded command leaves 0 in the fields it does not use (30_encoding R92). -/
@[simp] theorem unusedNonzero_fields (i : Instr) : i.fields.unusedNonzero i = false := by cases i <;> rfl

/-- A field that is 0 where it is not used (30_encoding R92). -/
theorem used_or_zero {n : Nat} {x : BitVec n} {used : Bool} (h : used = false → x = 0) : (if used then x else 0) = x := by
  cases used with
  | false => exact (h rfl).symm
  | true => rfl

/-- Fields with RSV and every unused field 0 are those of the command they give (30_encoding R91, R92). -/
theorem fields_withFields {f : Fields} {i : Instr} (hopc : f.opc = i.opcode) (hrsv : f.rsv = 0)
    (hunused : f.unusedNonzero i = false) : (i.withFields f).fields = f := by
  obtain ⟨hs, hv, hw, himm⟩ := (Fields.unusedNonzero_eq_false f i).1 hunused
  obtain ⟨opc, d, s, v, w, rsv, imm⟩ := f
  simp only [Instr.fields, opcode_withFields, receiver_withFields, other_withFields, valueField_withFields,
    widthField_withFields, immField_withFields, Fields.mk.injEq]
  refine ⟨hopc.symm, trivial, ?_, used_or_zero hv, used_or_zero hw, hrsv.symm, used_or_zero himm⟩
  cases ho : i.other with
  | none => exact (hs (by rw [ho]; rfl)).symm
  | some o => rfl

/-! ## The decoder -/

/-- An assigned opcode stands for its kind of command (30_encoding R94). -/
theorem command_of_opcode {f : Fields} {i : Instr} (h : f.opc = i.opcode) : f.command = some (i.withFields f) := by
  obtain ⟨opc, d, s, v, w, rsv, imm⟩ := f
  obtain rfl : opc = i.opcode := h
  cases i <;> rfl

theorem command_eq_some_iff (f : Fields) (i : Instr) : f.command = some i ↔ f.opc = i.opcode ∧ i.withFields f = i := by
  constructor
  · intro h
    unfold Fields.command at h
    split at h <;> cases h <;> exact ⟨‹_›, rfl⟩
  · rintro ⟨hopc, hi⟩
    rw [command_of_opcode hopc, hi]

/-- The slots that a command uses exist (30_encoding R87). -/
theorem wellFormed_iff (n : Nat) (i : Instr) :
    i.wellFormed n = true ↔ i.receiver.toNat < n ∧ ∀ o, i.other = some o → o.toNat < n := by
  cases ho : i.other <;> simp [Instr.wellFormed, SlotId.inRange, ho]

/-- The decoder's checks, all passed (30_encoding R98). -/
theorem decode_eq_ok_iff_checks (n : Nat) (w : Word) (i : Instr) : decode n w = .ok i ↔
    (Fields.ofWord w).command = some i ∧ (Fields.ofWord w).rsv = 0 ∧ (Fields.ofWord w).unusedNonzero i = false ∧
      i.wellFormed n = true := by
  constructor
  · intro h
    have hwf := Machine.wellFormed_of_decode h
    unfold decode at h
    dsimp only at h
    split at h
    · cases h
    · next j hj =>
      split_ifs at h with hrsv hunused
      cases h
      exact ⟨hj, by simpa using hrsv, by simpa using hunused, hwf⟩
  · rintro ⟨hi, hrsv, hunused, hwf⟩
    have hd : SlotId.inRange n i.receiver = true := decide_eq_true ((wellFormed_iff n i).1 hwf).1
    simp [decode, hi, hrsv, hunused, hwf, hd]

/-- A word's fields are a command's exactly when the word is its encoding (30_encoding R86). -/
theorem ofWord_eq_fields_iff (w : Word) (i : Instr) : Fields.ofWord w = i.fields ↔ encode i = w := by
  constructor
  · intro h
    rw [encode, ← h, Fields.toWord_ofWord]
  · rintro rfl
    exact fields_encode i

/-- The decoder and the encoder agree: a word decodes to a command exactly when it is the command's encoding and the command's
slots exist (30_encoding R87, R92). -/
theorem decode_eq_ok_iff (n : Nat) (w : Word) (i : Instr) : decode n w = .ok i ↔ encode i = w ∧ i.wellFormed n = true := by
  rw [decode_eq_ok_iff_checks, ← ofWord_eq_fields_iff]
  constructor
  · rintro ⟨hi, hrsv, hunused, hwf⟩
    obtain ⟨hopc, hi⟩ := (command_eq_some_iff _ i).1 hi
    have hfields := fields_withFields hopc hrsv hunused
    rw [hi] at hfields
    exact ⟨hfields.symm, hwf⟩
  · rintro ⟨hw, hwf⟩
    rw [hw]
    exact ⟨(command_eq_some_iff _ i).2 ⟨rfl, withFields_fields i⟩, rfl, unusedNonzero_fields i, hwf⟩

/-- Settles O1: a command's encoding carries its fields, which give it back. -/
theorem decodeReadsBackEveryEncoding : Obligations.DecodeReadsBackEveryEncoding := fun n i hwf =>
  (decode_eq_ok_iff n (encode i) i).2 ⟨rfl, hwf⟩

/-- Settles O2: the checks leave no field free that the command does not fix. -/
theorem everyDecodedWordIsItsEncoding : Obligations.EveryDecodedWordIsItsEncoding := fun n w i h =>
  (decode_eq_ok_iff n w i).1 h

/-- Settles O4: the sample words are encodings, and the two illegal ones are computed. -/
theorem sampleWordsDecode : Obligations.SampleWordsDecode := by
  have hsamples : ∀ p ∈ Machine.sampleWords, encode p.2 = p.1 ∧ p.2.wellFormed 16 = true := by decide
  exact ⟨fun p hp => ⟨(decode_eq_ok_iff 16 p.1 p.2).2 (hsamples p hp), (hsamples p hp).1⟩, by decide, by decide⟩

/-! ## The opcode table -/

/-- The bits that a kind of command fixes: OPC, RSV and every field that it does not use (30_encoding R92). -/
def Instr.fixedBits (i : Instr) : Fields where
  opc := BitVec.allOnes 8
  d := 0
  s := if i.other.isSome then 0 else BitVec.allOnes 4
  v := if i.usesV then 0 else BitVec.allOnes 1
  w := if i.usesW then 0 else BitVec.allOnes 2
  rsv := BitVec.allOnes 5
  imm := if i.usesImm then 0 else BitVec.allOnes 8

open Laws.WordShape (row opcodeFields maskD_toWord maskDV_toWord maskDI_toWord maskDS_toWord maskDW_toWord)

theorem fixedBits_toWord (i : Instr) : i.fixedBits.toWord = (row i).1 := by
  cases i with
  | set | setbo | setr => exact maskDV_toWord
  | setb | setrb => exact maskDI_toWord
  | and | or | xor | nor | xnor | nand | clone => exact maskDS_toWord
  | ldint => exact maskDW_toWord
  | _ => exact maskD_toWord

theorem opcodeFields_toWord (i : Instr) : (opcodeFields i.opcode).toWord = (row i).2 := by
  cases i <;> simp only [Instr.opcode, row] <;> decide

theorem Fields.toWord_inj {f g : Fields} : f.toWord = g.toWord ↔ f = g := by
  constructor
  · intro h
    rw [← Fields.ofWord_toWord f, h, Fields.ofWord_toWord]
  · rintro rfl
    rfl

/-- A field under its part of the fixed bits. -/
theorem and_fixed_eq_zero_iff {n : Nat} (x : BitVec n) (used : Bool) :
    x &&& (if used then 0 else BitVec.allOnes n) = 0 ↔ (used = false → x = 0) := by
  cases used <;> simp

/-- A word has the bits of a command's row exactly when it passes the decoder's checks for that kind of command
(30_encoding R92). -/
theorem and_mask_eq_match_iff (w : Word) (i : Instr) : w &&& (row i).1 = (row i).2 ↔
    (Fields.ofWord w).opc = i.opcode ∧ (Fields.ofWord w).rsv = 0 ∧ (Fields.ofWord w).unusedNonzero i = false := by
  have hw := Fields.toWord_and (Fields.ofWord w) i.fixedBits
  rw [Fields.toWord_ofWord, fixedBits_toWord] at hw
  rw [hw, ← opcodeFields_toWord, Fields.toWord_inj, Fields.unusedNonzero_eq_false]
  simp only [Fields.mask, Instr.fixedBits, opcodeFields, Fields.mk.injEq, and_fixed_eq_zero_iff, BitVec.and_allOnes]
  constructor
  · rintro ⟨hopc, -, hs, hv, hw, hrsv, himm⟩
    exact ⟨hopc, hrsv, hs, hv, hw, himm⟩
  · rintro ⟨hopc, hrsv, hs, hv, hw, himm⟩
    exact ⟨hopc, BitVec.and_zero, hs, hv, hw, hrsv, himm⟩

/-- A kind of command as a row of the table: match, mask, and whether it uses S. -/
def Instr.tableRow (i : Instr) : Word × Word × Bool := ((row i).2, (row i).1, i.other.isSome)

/-- One command of each kind, in the order of 30_encoding R94. -/
def Instr.kinds : List Instr :=
  [.get 0, .set 0 false, .setbo 0 false, .getb 0, .setb 0 0, .setr 0 false, .setrb 0 0, .getrb 0, .and 0 0, .or 0 0, .xor 0 0,
    .nor 0 0, .xnor 0 0, .nand 0 0, .not 0, .new 0, .ldint 0 .w8, .ldbytes 0, .clone 0 0, .getsize 0, .getlen 0]

/-- The table has a row for every kind of command and no other (30_encoding R94). -/
theorem mem_opcodeRows_iff (r : Word × Word × Bool) : r ∈ Machine.opcodeRows ↔ ∃ i : Instr, r = i.tableRow := by
  constructor
  · intro hr
    have hrows : Machine.opcodeRows = Instr.kinds.map Instr.tableRow := rfl
    rw [hrows, List.mem_map] at hr
    obtain ⟨i, -, hi⟩ := hr
    exact ⟨i, hi.symm⟩
  · rintro ⟨i, rfl⟩
    cases i <;> simp [Machine.opcodeRows, Instr.tableRow, row, Instr.other]

/-- Settles O3: a row is the decoder's checks on OPC, RSV and the unused fields, and the slots are the fields D and S. -/
theorem decoderFollowsTheOpcodeTable : Obligations.DecoderFollowsTheOpcodeTable := by
  intro n w
  constructor
  · rintro ⟨i, hi⟩
    obtain ⟨hcmd, hrsv, hunused, hwf⟩ := (decode_eq_ok_iff_checks n w i).1 hi
    obtain ⟨hopc, hfields⟩ := (command_eq_some_iff _ i).1 hcmd
    rw [← hfields] at hwf
    obtain ⟨hd, ho⟩ := (wellFormed_iff n _).1 hwf
    refine ⟨i.tableRow, (mem_opcodeRows_iff _).2 ⟨i, rfl⟩, (and_mask_eq_match_iff w i).2 ⟨hopc, hrsv, hunused⟩, ?_,
      fun hs => ?_⟩
    · rwa [receiver_withFields] at hd
    · obtain ⟨o, hother⟩ := Option.isSome_iff_exists.1 hs
      exact ho _ (by rw [other_withFields, hother]; rfl)
  · rintro ⟨r, hr, hbits, hd, hs⟩
    obtain ⟨i, rfl⟩ := (mem_opcodeRows_iff r).1 hr
    obtain ⟨hopc, hrsv, hunused⟩ := (and_mask_eq_match_iff w i).1 hbits
    refine ⟨_, (decode_eq_ok_iff_checks n w _).2 ⟨command_of_opcode hopc, hrsv, ?_, ?_⟩⟩
    · rwa [unusedNonzero_withFields]
    · refine (wellFormed_iff n _).2 ⟨by rwa [receiver_withFields], fun o ho => ?_⟩
      obtain ⟨o', hother, rfl⟩ := Option.map_eq_some_iff.1 ((other_withFields i _).symm.trans ho)
      exact hs (Option.isSome_iff_exists.2 ⟨o', hother⟩)

end Sys2Proof
end

section
/-! SUPPORT. The engine's step on a word that decodes and on one that does not (30_encoding R95, 70_reset R234). -/

namespace Sys2Proof.Machine

/-- The engine's step runs the command that CMD holds (70_reset R234 step 3). -/
theorem step_of_decode {s : State} {i : Instr} (hs : EngineNext s) (hd : decode s.params.nslots s.cmd = .ok i) :
    step s = exec i s := by
  rw [step_engine hs, engineStep, hd]

/-- Settles O7: the placed word is in CMD with the engine's step next. -/
theorem placedWordRunsNext : Obligations.PlacedWordRunsNext := by
  intro s nbits w i hn hw
  have hd : decode 16 (tableWord nbits w) = .ok i := by
    unfold decodeTableWord at hw
    cases h : decode Config.defaults.nslots (tableWord nbits w) with
    | error r => simp [h, Except.toOption] at hw
    | ok j =>
      obtain rfl : j = i := by simpa [h, Except.toOption] using hw
      exact h
  refine step_of_decode ⟨rfl, rfl, rfl⟩ ?_
  show decode s.params.nslots (tableWord nbits w) = .ok i
  rw [hn, hd]

/-- A word that does not decode completes with IllegalCommand and changes STATUS alone (30_encoding R95, 60_exceptions R205). -/
theorem step_of_decode_error {s : State} {r : Reject} (hs : EngineNext s) (hd : decode s.params.nslots s.cmd = .error r) :
    step s = .next { s with busy := false, errSeen := true, err := .illegalCommand } := by
  rw [step_engine hs, engineStep, hd]
  simp [State.raise, State.complete]

/-- The opcodes of 30_encoding R95, which stand for no command. -/
def unassignedOpcodes : List Nat :=
  [0x00] ++ List.range' 0x05 11 ++ List.range' 0x15 11 ++ List.range' 0x23 13 ++ List.range' 0x37 9 ++ List.range' 0x42 190

theorem opcode_not_unassigned (i : Instr) : i.opcode.toNat ∉ unassignedOpcodes := by
  cases i <;> simp [Instr.opcode, unassignedOpcodes]

/-- Settles O5: a word that decodes has an assigned opcode, RSV 0 and a receiver that exists. -/
theorem illegalWordsChangeOnlyStatus : Obligations.IllegalWordsChangeOnlyStatus := by
  intro s hs hillegal
  cases hd : decode s.params.nslots s.cmd with
  | error r => exact step_of_decode_error hs hd
  | ok i =>
    exfalso
    obtain ⟨hcmd, hrsv, -, -⟩ := (decode_eq_ok_iff_checks _ _ i).1 hd
    obtain ⟨hopc, hi⟩ := (command_eq_some_iff _ i).1 hcmd
    have hreceiver := receiver_lt_of_decode hd
    rw [← hi, receiver_withFields] at hreceiver
    rcases hillegal with h | h | h | ⟨r, h⟩
    · have hmem : (Fields.ofWord s.cmd).opc.toNat ∈ unassignedOpcodes := h
      rw [hopc] at hmem
      exact opcode_not_unassigned i hmem
    · exact h hrsv
    · exact absurd hreceiver (Nat.not_lt.2 h)
    · rw [h] at hd
      cases hd

end Sys2Proof.Machine
end

section
/-! SUPPORT. What no command reads: A and B where 30_encoding R93 does not list them, BUSY, and the host's side. -/

namespace Sys2Proof.Machine

/-- `s` with the operand registers, BUSY and the host's side of `h`: of them a command reads A and B at most, and writes BUSY at
most. -/
def State.besides (s h : State) : State :=
  { s with
    a := h.a, b := h.b, busy := h.busy, lat := h.lat, awaiting := h.awaiting, host := h.host, busData := h.busData
    draws := h.draws }

@[simp] theorem besides_a (s h : State) : (s.besides h).a = h.a := rfl

@[simp] theorem besides_b (s h : State) : (s.besides h).b = h.b := rfl

@[simp] theorem slot_besides (s h : State) (k : SlotId) : (s.besides h).slot k = s.slot k := rfl

/-! The operations on a slot read none of it. -/

theorem grow_besides (s h : State) (k : SlotId) (n : Nat) : (s.besides h).grow k n = (s.grow k n).besides h := by
  unfold State.grow
  rw [slot_besides]
  dsimp only
  split <;> rfl

theorem writeByte_besides (s h : State) (k : SlotId) (i : Nat) (b : Byte) :
    (s.besides h).writeByte k i b = (s.writeByte k i b).besides h := rfl

theorem fillBytes_besides (s h : State) (k : SlotId) (f : Nat → Byte) (i n : Nat) :
    (s.besides h).fillBytes k f i n = (s.fillBytes k f i n).besides h := rfl

theorem writeBit_besides (s h : State) (k : SlotId) (p : Nat) (v : Bool) :
    (s.besides h).writeBit k p v = (s.writeBit k p v).besides h := rfl

theorem raiseSize_besides (s h : State) (k : SlotId) (v : Nat) : (s.besides h).raiseSize k v = (s.raiseSize k v).besides h := rfl

theorem writeRange_besides (d : SlotId) (start stop : Nat) (v : Bool) (s h : State) :
    writeRange d start stop v (s.besides h) = (writeRange d start stop v s).besides h := by
  unfold writeRange
  dsimp only
  split <;> rfl

theorem writeBitGrowing_besides (d : SlotId) (p : Nat) (v : Bool) (s h : State) :
    writeBitGrowing d p v (s.besides h) = (writeBitGrowing d p v s).besides h := by
  simp only [writeBitGrowing, grow_besides, writeBit_besides, raiseSize_besides]

/-- LDINT of at most 32 bits stores bytes of A alone (43_codec R172). -/
theorem valueByte_integerOperand (a b : Word) {i : Nat} (hi : i < 4) :
    valueByte (integerOperand a b) i = a.extractLsb' (8 * i) 8 := by
  unfold valueByte integerOperand
  exact extract_append_low b a (8 * i) 8 (by omega)

/-- LDINT's effect phase reads B for 64 bits alone (30_encoding R93). -/
theorem effectLdint_besides {w : IntWidth} {s h : State} (d : SlotId) (ha : h.a = s.a) (hb : w = .w64 → h.b = s.b) :
    effectLdint d w (s.besides h) = (effectLdint d w s).besides h := by
  have hfill (m : Mem) : m.fill (valueByte (integerOperand s.a h.b)) 0 (widthBytes w) =
      m.fill (valueByte (integerOperand s.a s.b)) 0 (widthBytes w) := by
    by_cases hw : w = .w64
    · rw [hb hw]
    · have h4 : widthBytes w ≤ 4 := by cases w <;> simp_all [widthBytes]
      refine Mem.fill_congr m fun i _ hi => ?_
      rw [valueByte_integerOperand _ _ (by omega), valueByte_integerOperand _ _ (by omega)]
  simp only [effectLdint, State.construct, besides_a, besides_b, slot_besides, ha, hfill]
  rfl

section
variable {i : Instr} {s h : State} (ha : readsA i = true → h.a = s.a) (hb : readsB i = true → h.b = s.b)
include ha hb

/-- A check phase reads A and B where 30_encoding R93 lists them, and nothing else of `State.besides`. -/
theorem checkOf_besides : checkOf i (s.besides h) = checkOf i s := by
  cases i with
  | get d => simp only [checkOf, checkGet, besides_a, ha rfl]; rfl
  | set d v => simp only [checkOf, checkSet, besides_a, ha rfl]; rfl
  | setbo d v => simp only [checkOf, checkSetbo, besides_a, besides_b, ha rfl, hb rfl]; rfl
  | getb d => simp only [checkOf, checkGetb, besides_a, ha rfl]; rfl
  | setb d imm => simp only [checkOf, checkSetb, besides_a, ha rfl]; rfl
  | setr d v => simp only [checkOf, checkSetr, badRange, besides_a, besides_b, ha rfl, hb rfl]; rfl
  | setrb d imm => simp only [checkOf, checkSetrb, badRange, besides_a, besides_b, ha rfl, hb rfl]; rfl
  | getrb d => simp only [checkOf, checkGetrb, badRange, besides_a, besides_b, ha rfl, hb rfl]; rfl
  | new d => simp only [checkOf, checkNew, besides_a, ha rfl]; rfl
  | _ => rfl

/-- An effect phase reads A and B where 30_encoding R93 lists them, and nothing else of `State.besides`. -/
theorem effectOf_besides : effectOf i (s.besides h) = (effectOf i s).besides h := by
  cases i with
  | get d => simp only [effectOf, effectGet, State.besides, ha rfl]; rfl
  | set d v => simp only [effectOf, effectSet, besides_a, ha rfl, writeBitGrowing_besides]
  | setbo d v => simp only [effectOf, effectSetbo, besides_a, besides_b, ha rfl, hb rfl, writeBitGrowing_besides]
  | getb d => simp only [effectOf, effectGetb, State.besides, ha rfl]; rfl
  | setb d imm => simp only [effectOf, effectSetb, besides_a, ha rfl, grow_besides, writeByte_besides, raiseSize_besides]
  | setr d v =>
    simp only [effectOf, effectSetr, besides_a, besides_b, ha rfl, hb rfl, grow_besides, raiseSize_besides, writeRange_besides]
  | setrb d imm =>
    simp only [effectOf, effectSetrb, besides_a, besides_b, ha rfl, hb rfl, grow_besides, fillBytes_besides, raiseSize_besides]
  | getrb d => simp only [effectOf, effectGetrb, State.besides, ha rfl, hb rfl]; rfl
  | new d => simp only [effectOf, effectNew, besides_a, ha rfl]; rfl
  | ldint d w => exact effectLdint_besides d (ha rfl) fun hw => hb (by rw [hw]; rfl)
  | clone d o =>
    simp only [effectOf, effectClone]
    split <;> rfl
  | _ => rfl

/-- A command does the same whatever stands in the registers it does not read and on the host's side (30_encoding R93). -/
theorem exec_besides {t : State} (ht : exec i s = .next t) :
    exec i (s.besides h) = .next (t.besides { h with busy := false }) := by
  rw [exec_eq, checkOf_besides ha hb, effectOf_besides ha hb]
  rcases exec_cases ht with ⟨hc, rfl⟩ | ⟨hc, rfl⟩
  · rw [if_pos hc]
    rfl
  · rw [if_neg hc]
    rfl

end

/-- Settles O38: what the command leaves of A and B is what it found. -/
theorem unusedOperandsDoNotMatter : Obligations.UnusedOperandsDoNotMatter := by
  intro i s t x ht
  constructor
  · intro hA
    calc exec i { s with a := x } = .next (t.besides { s with a := x, busy := false }) :=
          exec_besides (s := s) (h := { s with a := x }) (by simp [hA]) (fun _ => rfl) ht
      _ = .next { t with a := x } := by rw [exec_frame ht]; rfl
  · intro hB
    calc exec i { s with b := x } = .next (t.besides { s with b := x, busy := false }) :=
          exec_besides (s := s) (h := { s with b := x }) (fun _ => rfl) (by simp [hB]) ht
      _ = .next { t with b := x } := by rw [exec_frame ht]; rfl

end Sys2Proof.Machine
end

section
/-! SUPPORT. A command line from its write of CMD to the read that sees BUSY = 0 (30_encoding R99, 70_reset R234, R238). -/

namespace Sys2Proof.Machine

theorem readValue_status (s : State) : s.readValue 4 0x010 = s.status := rfl

/-- A read of STATUS that sees BUSY = 1 changes the read value and the count of draws alone (20_memory R70). -/
theorem hostRead_status_busy {s : State} (hb : s.busy = true) :
    s.hostRead 4 0x010 = { s with busData := s.status, draws := s.draws + 1 } := by
  simp [State.hostRead, readValue_status, hb]

/-- A read of STATUS that sees BUSY = 0 ends the host's wait (20_memory R76). -/
theorem hostRead_status_idle {s : State} (hb : s.busy = false) :
    s.hostRead 4 0x010 = { s with busData := s.status, awaiting := false } := by
  simp [State.hostRead, readValue_status, hb]

/-- The wait loop's read while BUSY = 1: the host reads again (70_reset R234 step 4). -/
theorem hostAct_waitIdle_busy {s : State} (hb : s.busy = true) :
    s.hostAct .waitIdle = .next { s with busData := s.status, draws := s.draws + 1, host := .waitIdle :: s.host } := by
  show Host.Outcome.next (if s.busy then { s.hostRead 4 0x010 with host := .waitIdle :: s.host } else s.hostRead 4 0x010) = _
  rw [if_pos hb, hostRead_status_busy hb]

/-- The wait loop's read at BUSY = 0: the wait is over (70_reset R234 step 4). -/
theorem hostAct_waitIdle_idle {s : State} (hb : s.busy = false) :
    s.hostAct .waitIdle = .next { s with busData := s.status, awaiting := false } := by
  show Host.Outcome.next (if s.busy then { s.hostRead 4 0x010 with host := .waitIdle :: s.host } else s.hostRead 4 0x010) = _
  rw [if_neg (by simp [hb]), hostRead_status_idle hb]

/-- The host waits while the command runs: it reads STATUS and waits on (70_reset R234 step 4). -/
theorem step_waiting {s : State} {rest : List HostAct} (hr : s.resetLine = false) (hb : s.busy = true) (hl : s.lat ≠ 0)
    (hh : s.host = .waitIdle :: rest) :
    step s = .next { s with lat := s.lat - 1, busData := s.status, draws := s.draws + 1 } := by
  rw [step_host ⟨hh, .inr (.inr hl)⟩, if_pos ⟨hr, hb⟩,
    hostAct_waitIdle_busy (s := { s with host := rest, lat := s.lat - 1 }) hb, hh]
  rfl

/-- The host's wait ends at BUSY = 0 (70_reset R234 step 4, 20_memory R76). -/
theorem step_waitIdle {s : State} {rest : List HostAct} (hb : s.busy = false) (hh : s.host = .waitIdle :: rest) :
    step s = .next { s with host := rest, busData := s.status, awaiting := false } := by
  rw [step_not_busy hh hb, hostAct_waitIdle_idle (s := { s with host := rest }) hb]
  rfl

/-- A waiting host passes the steps before the engine's with nothing changed but the read value and the counters. -/
theorem run_waiting {s : State} {rest : List HostAct} (hr : s.resetLine = false) (hb : s.busy = true)
    (hh : s.host = .waitIdle :: rest) {m : Nat} (hm : m ≤ s.lat) :
    ∃ data draws, Host.Core.run core m s = .next { s with lat := s.lat - m, busData := data, draws := draws } := by
  induction m generalizing s with
  | zero => exact ⟨s.busData, s.draws, rfl⟩
  | succ m ih =>
    have hstep := step_waiting hr hb (by omega) hh
    obtain ⟨data, draws, hrun⟩ := ih (s := { s with lat := s.lat - 1, busData := s.status, draws := s.draws + 1 }) hr hb hh
      (Nat.le_sub_one_of_lt hm)
    refine ⟨data, draws, ?_⟩
    rw [run_step core m hstep, hrun]
    show Host.Outcome.next { s with lat := s.lat - 1 - m, busData := data, draws := draws } = _
    rw [Nat.sub_sub, Nat.add_comm 1 m]
    rfl

/-- `s` while the host waits for the command word that it has written (70_reset R234). -/
def State.waiting (s : State) (w : Word) (rest : List HostAct) (lat : Nat) (data : Word) (draws : Nat) : State :=
  { s with cmd := w, busy := true, awaiting := true, lat := lat, host := .waitIdle :: rest, busData := data, draws := draws }

/-- From a command line's first access up to the engine's step the host waits and nothing else moves, whatever the latency. -/
theorem run_command_line {s : State} {w : Word} {rest : List HostAct}
    (h : IdleNext s (.write 4 s.params.base w) (.waitIdle :: rest)) {m : Nat} (hm : m ≤ Config.latency s.draws) :
    ∃ data draws, Host.Core.run core (1 + m) s = .next (s.waiting w rest (Config.latency s.draws - m) data draws) := by
  have hissue : step s = .next (s.waiting w rest (Config.latency s.draws) s.busData (s.draws + 1)) :=
    step_idle_write (off := 0) h (by decide) rfl rfl
  obtain ⟨-, hr, -, -⟩ := h
  obtain ⟨data, draws, hrun⟩ :=
    run_waiting (s := s.waiting w rest (Config.latency s.draws) s.busData (s.draws + 1)) hr rfl rfl hm
  refine ⟨data, draws, ?_⟩
  rw [Nat.add_comm, run_step core m hissue, hrun]
  rfl

/-- The engine's step of a command line does what the command does (30_encoding R99). -/
theorem step_waiting_engine {s u : State} {i : Instr} (hwf : i.wellFormed s.params.nslots = true) (hr : s.resetLine = false)
    (hu : exec i { s with cmd := encode i } = .next u) (rest : List HostAct) (data : Word) (draws : Nat) :
    step (s.waiting (encode i) rest 0 data draws) =
      .next (u.besides { s.waiting (encode i) rest 0 data draws with busy := false }) := by
  have hd : decode s.params.nslots (encode i) = .ok i := (decode_eq_ok_iff _ _ i).2 ⟨rfl, hwf⟩
  rw [step_of_decode (s := s.waiting (encode i) rest 0 data draws) ⟨hr, rfl, rfl⟩ hd]
  exact exec_besides (s := { s with cmd := encode i }) (h := s.waiting (encode i) rest 0 data draws) (fun _ => rfl)
    (fun _ => rfl) hu

/-- Settles O57: the write of CMD, the wait, the engine's step and the read that sees its end. -/
theorem commandLineRunsTheCommand : Obligations.CommandLineRunsTheCommand := by
  intro s i rest hwf hr hb haw (hh : s.host = .write 4 s.params.base (encode i) :: .waitIdle :: rest)
  have hline {m : Nat} (hm : m ≤ Config.latency s.draws) := run_command_line ⟨hh, hr, hb, haw⟩ hm
  -- The run of the whole line: the latency, the engine's step, the read that sees BUSY = 0.
  obtain ⟨data, draws, hrun⟩ := hline le_rfl
  rw [Nat.sub_self] at hrun
  obtain ⟨u, hu⟩ : ∃ u, exec i { s with cmd := encode i } = .next u := ⟨_, exec_eq i _⟩
  have hframe := exec_frame hu
  have hengine := step_waiting_engine hwf hr hu rest data draws
  have hdone := run_append core hrun (run_step core 0 hengine)
  have hread := step_waitIdle (s := u.besides { s.waiting (encode i) rest 0 data draws with busy := false }) rfl rfl
  refine ⟨_, _, u, run_append core hdone (run_step core 0 hread), hu, ?_, fun hrest => ?_⟩
  · rw [hframe, haw]
    rfl
  · have hissues : s.issuesNext = true := by simp [State.issuesNext, hh, HostAct.issues]
    -- Before the engine's step every state of the run is one of the host waiting, with BUSY = 1.
    refine ⟨hissues, _, _, Nat.succ_pos _, hdone, rfl, hread, fun m h0 hm v hv => ?_, ?_⟩
    · obtain ⟨m, rfl⟩ := Nat.exists_eq_add_of_lt h0
      obtain ⟨data, draws, hwait⟩ := hline (m := m) (by omega)
      rw [show 0 + m + 1 = 1 + m by omega, hwait] at hv
      cases hv
      rfl
    · rw [hframe]
      exact hrest

end Sys2Proof.Machine
end

section
/-! SUPPORT. The one code that a command reports (60_exceptions R201 to R204, R207), and that an error changes STATUS alone
(60_exceptions R206). -/

namespace Sys2Proof.Machine

/-- A bit's byte against a capacity, in natural numbers and in exact integers (00_scope R12, 40_bit_access R110). -/
theorem lt_byteIndex_toNat_iff {p : Int} (h : 0 ≤ p) (n : Nat) : n < byteIndex p.toNat + 1 ↔ (n : Int) < p / 8 + 1 := by
  lift p to ℕ using h
  unfold byteIndex
  omega

/-- The bytes of a size against a capacity, in natural numbers and in exact integers (00_scope R12). -/
theorem lt_ceil8_toNat_iff {p : Int} (h : 0 ≤ p) (n : Nat) : n < ceil8 p.toNat ↔ (n : Int) < (p + 7) / 8 := by
  lift p to ℕ using h
  unfold ceil8
  omega

/-- A command's checks are the conditions of R201 to R204, in the order of R207. Where the capacity is that of a bit or of a size,
the two agree since the check before it has excluded the negative operands. -/
theorem checkOf_eq_reportedCode (i : Instr) (s : State) : checkOf i s = reportedCode i s := by
  cases i <;>
    simp only [checkOf, checkGet, checkSet, checkSetbo, checkGetb, checkSetb, checkSetr, checkSetrb, checkGetrb, checkLogic,
      checkNot, checkNew, checkLdbytes, checkClone, checkQuery, badRange, State.noContainer, reportedCode, namesNoContainer,
      badArgument, beyondContainer, beyondCapacity, Instr.isConstructor, Instr.other, Instr.receiver, firstError_cons,
      firstError_nil, Bool.not_false, Bool.not_true, Bool.true_and, Bool.false_and, Bool.or_eq_true, decide_eq_true_eq, ite_or,
      Bool.false_eq_true, if_false]
  case set d v =>
    rcases lt_or_ge (sint32 s.a) 0 with ha | ha
    · simp only [if_pos ha]
    · simp only [lt_byteIndex_toNat_iff ha]
  case setr d v =>
    rcases lt_or_ge (sint32 s.a) 0 with ha | ha
    · simp only [if_pos ha]
    · rcases le_or_gt (sint32 s.b) (sint32 s.a) with hb | hb
      · simp only [if_pos hb]
      · have hlast : (sint32 s.b).toNat - 1 = (sint32 s.b - 1).toNat := by omega
        simp only [hlast, lt_byteIndex_toNat_iff (Int.le_sub_one_of_lt (ha.trans_lt hb))]
  case new d =>
    rcases lt_or_ge (sint32 s.a) 0 with ha | ha
    · simp only [if_pos ha]
    · simp only [lt_ceil8_toNat_iff ha]

/-- A command whose first error condition has the code `c` completes with `c` and changes STATUS alone (60_exceptions R206). -/
theorem fails_of_reportedCode {i : Instr} {s : State} {c : ErrCode} (h : reportedCode i s = c) (hc : c ≠ .ok) : Fails i s c := by
  rw [Fails, exec_eq, checkOf_eq_reportedCode, h, if_neg hc]
  simp [State.complete, hc]

section
variable {i : Instr} {s : State}

/-! A command that names no other slot and is no constructor needs a container in its receiver alone (60_exceptions R204). -/

theorem namesNoContainer_of_invalid (hi : i.isConstructor = false) (hv : (s.slot i.receiver).valid = false) :
    namesNoContainer i s = true := by
  simp [namesNoContainer, hi, hv]

theorem namesNoContainer_of_valid (ho : i.other = none) (hv : (s.slot i.receiver).valid = true) :
    namesNoContainer i s = false := by
  simp [namesNoContainer, ho, hv]

/-! The four codes in the order of 60_exceptions R207. -/

theorem fails_noContainer (hn : namesNoContainer i s = true) : Fails i s .noContainer :=
  fails_of_reportedCode (by rw [reportedCode, if_pos hn]) (by decide)

theorem fails_invalidArgument (hn : namesNoContainer i s = false) (ha : badArgument i s = true) : Fails i s .invalidArgument :=
  fails_of_reportedCode (by simp [reportedCode, hn, ha]) (by decide)

theorem fails_outOfRange (hn : namesNoContainer i s = false) (ha : badArgument i s = false)
    (hr : beyondContainer i s = true) : Fails i s .outOfRange :=
  fails_of_reportedCode (by simp [reportedCode, hn, ha, hr]) (by decide)

theorem fails_capacityExceeded (hn : namesNoContainer i s = false) (ha : badArgument i s = false)
    (hr : beyondContainer i s = false) (hc : beyondCapacity i s = true) : Fails i s .capacityExceeded :=
  fails_of_reportedCode (by simp [reportedCode, hn, ha, hr, hc]) (by decide)

end

end Sys2Proof.Machine
end

section
/-! SUPPORT. The bit and byte access commands: GET, SET, SETBO, GETB, SETB (40_bit_access). -/

namespace Sys2Proof.Machine

open Laws

/-! ## GET and GETB -/

/-- A bit shifted down and masked is that bit, widened (40_bit_access R110). -/
theorem setWidth_shiftRight_and_one (b : Byte) (j : Nat) : ((b >>> j) &&& 1).setWidth 32 = zextBool (b.getLsbD j) := by
  rw [show (1 : Byte) = 1#8 from rfl, BitVec.and_one_eq_setWidth_ofBool_getLsbD, BitVec.getLsbD_ushiftRight, Nat.add_zero]
  cases b.getLsbD j <;> rfl

/-- Settles O11: GET's bit is R110's, and a failed check reports the first condition in R207's order. -/
theorem getReadsOneBit : Obligations.GetReadsOneBit := by
  intro d s
  refine ⟨fun hv h0 hlt => ?_, fun hv => fails_noContainer (namesNoContainer_of_invalid rfl hv),
    fun hv ha => fails_invalidArgument (namesNoContainer_of_valid rfl hv) (decide_eq_true ha),
    fun hv h0 hr => fails_outOfRange (namesNoContainer_of_valid rfl hv) (decide_eq_false h0.not_gt) (decide_eq_true hr),
    WordShape.get d⟩
  rw [exec_of_check (i := .get d) ((checkGet_eq_ok d s).2 ⟨hv, h0, hlt⟩), complete_ok, setWidth_shiftRight_and_one]
  rfl

/-- Settles O15: a byte widened with zeros is the same number. -/
theorem getbReadsOneByte : Obligations.GetbReadsOneByte := by
  intro d s
  refine ⟨fun hv h0 hlt => ?_, fun hv => fails_noContainer (namesNoContainer_of_invalid rfl hv),
    fun hv ha => fails_invalidArgument (namesNoContainer_of_valid rfl hv) (decide_eq_true ha),
    fun hv h0 hr => fails_outOfRange (namesNoContainer_of_valid rfl hv) (decide_eq_false h0.not_gt) (decide_eq_true hr),
    WordShape.getb d⟩
  exact ⟨_, exec_of_check (i := .getb d) ((checkGetb_eq_ok d s).2 ⟨hv, h0, hlt⟩), complete_ok _,
    BitVec.toNat_setWidth_of_le (by decide)⟩

/-! ## SET and SETBO -/

/-- The backing bytes after growth: the old ones unchanged, the new ones 0 (20_memory R65). -/
theorem byte_grow_of_lt (s : State) (k : SlotId) {n i : Nat} (hi : i < max (s.slot k).len n) :
    (s.grow k n).byte k i = if i < (s.slot k).len then s.byte k i else 0 := by
  rw [byte_grow]
  by_cases hold : i < (s.slot k).len
  · rw [if_neg (by omega), if_pos hold]
  · rw [if_pos (by omega), if_neg hold]

/-- The backing bits after growth: the old ones unchanged, the new ones 0 (20_memory R65). -/
theorem readBit_grow_of_lt (s : State) (k : SlotId) {n q : Nat} (hq : q < 8 * max (s.slot k).len n) :
    (s.grow k n).readBit k q = if q < 8 * (s.slot k).len then s.readBit k q else false := by
  have hold : byteIndex q < (s.slot k).len ↔ q < 8 * (s.slot k).len := by unfold byteIndex; omega
  rw [State.readBit, byte_grow_of_lt s k (by unfold byteIndex; omega)]
  simp only [hold]
  split
  · rfl
  · exact BitVec.getLsbD_zero

/-- What SET and SETBO do to a slot that holds a container (40_bit_access R112, R113, R117). -/
theorem wroteBit_writeBitGrowing {d : SlotId} {s : State} (hv : (s.slot d).valid = true) (p : Nat) (v : Bool) :
    WroteBit d p v s ((writeBitGrowing d p v s).complete .ok) := by
  have hlen : ((writeBitGrowing d p v s).slot d).len = max (s.slot d).len (p / 8 + 1) := by
    simp [writeBitGrowing, byteIndex]
  refine ⟨(onlySlot_writeBitGrowing d p v s).wroteSlot, ?_, hlen, ?_, fun q hq => ?_⟩
  · simp [writeBitGrowing, hv]
  · simp [writeBitGrowing]
  · rw [slot_complete, hlen] at hq
    rw [readBit_complete, writeBitGrowing, readBit_raiseSize, readBit_writeBit,
      readBit_grow_of_lt s d (n := byteIndex p + 1) hq]

/-- Settles O12: `wroteBit_writeBitGrowing` at bit A, and the capacity in exact integers. -/
theorem setWritesOneBit : Obligations.SetWritesOneBit := by
  intro d v s
  refine ⟨fun hv h0 hmax => ?_, fun hv => fails_noContainer (namesNoContainer_of_invalid rfl hv),
    fun hv ha => fails_invalidArgument (namesNoContainer_of_valid rfl hv) (decide_eq_true ha),
    fun hv h0 hc => fails_capacityExceeded (namesNoContainer_of_valid rfl hv) (decide_eq_false h0.not_gt) rfl
      (decide_eq_true hc), WordShape.set d v⟩
  have hc : checkSet d s = .ok :=
    (checkSet_eq_ok d s).2 ⟨hv, h0, not_lt.1 (mt (lt_byteIndex_toNat_iff h0 _).1 hmax.not_gt)⟩
  exact ⟨_, exec_of_check (i := .set d v) hc, wroteBit_writeBitGrowing hv _ v⟩

/-- Settles O13: `wroteBit_writeBitGrowing` at bit 8 A + B. -/
theorem setboWritesOneBit : Obligations.SetboWritesOneBit := by
  intro d v s
  refine ⟨fun hv ha hb hb7 hmax => ?_, fun hv => fails_noContainer (namesNoContainer_of_invalid rfl hv),
    fun hv ha => fails_invalidArgument (namesNoContainer_of_valid rfl hv) (decide_eq_true ha),
    fun hv ha hb hb7 hc => fails_capacityExceeded (namesNoContainer_of_valid rfl hv) (decide_eq_false (by omega)) rfl
      (decide_eq_true hc), WordShape.setbo d v⟩
  have hp : (8 * sint32 s.a + sint32 s.b).toNat = 8 * (sint32 s.a).toNat + (sint32 s.b).toNat := by omega
  rw [hp]
  exact ⟨_, exec_of_check (i := .setbo d v) ((checkSetbo_eq_ok d s).2 ⟨hv, ha, ⟨hb, hb7⟩, hmax⟩),
    wroteBit_writeBitGrowing hv _ v⟩

/-- Writing a bit reads nothing of register A. -/
theorem writeBitGrowing_with_a (d : SlotId) (p : Nat) (v : Bool) (s : State) (x : Word) :
    writeBitGrowing d p v { s with a := x } = { writeBitGrowing d p v s with a := x } := by
  have h := writeBitGrowing_besides d p v s { s with a := x }
  rw [(onlySlot_writeBitGrowing d p v s).1] at h ⊢
  exact h

/-- Settles O14: the two checks report one code, and the two effects write one bit. -/
theorem setboIsSetAtItsPosition : Obligations.SetboIsSetAtItsPosition := by
  intro d v s x t ha hb hb7 hx ht
  have hcheck : checkOf (.set d v) { s with a := x } = checkOf (.setbo d v) s := by
    have hneg : sint32 x < 0 ↔ sint32 s.a < 0 ∨ sint32 s.b < 0 ∨ 7 < sint32 s.b := by omega
    have hbyte : sint32 x / 8 = sint32 s.a := by omega
    simp only [checkOf_eq_reportedCode, reportedCode, badArgument, beyondCapacity, hneg, hbyte]
    rfl
  have heffect : effectOf (.set d v) { s with a := x } = { effectOf (.setbo d v) s with a := x } := by
    have hp : (sint32 x).toNat = 8 * (sint32 s.a).toNat + (sint32 s.b).toNat := by omega
    simp only [effectOf, effectSet, effectSetbo, hp, writeBitGrowing_with_a]
  rw [exec_eq, hcheck, heffect]
  rcases exec_cases ht with ⟨hc, rfl⟩ | ⟨hc, rfl⟩
  · rw [if_pos hc]
    rfl
  · rw [if_neg hc]
    rfl

/-- Settles O17: the bit that SET wrote lies below the size that it left. -/
theorem setThenGetReadsTheValue : Obligations.SetThenGetReadsTheValue := by
  intro d v s hv h0 hmax
  obtain ⟨hset, -⟩ := setWritesOneBit d v s
  obtain ⟨t, ht, ⟨hrest, -⟩, hvalid, hlen, hsize, hbits⟩ := hset hv h0 hmax
  have ha : t.a = s.a := by rw [hrest]
  have hget : checkOf (.get d) t = .ok := (checkGet_eq_ok d t).2 ⟨hvalid, ha ▸ h0, by rw [ha, hsize]; omega⟩
  refine ⟨t, _, ht, exec_of_check hget, rfl, ?_⟩
  show zextBool (t.readBit d (sint32 t.a).toNat) = zextBool v
  rw [ha, hbits _ (by rw [hlen]; omega), if_pos rfl]

/-! ## SETB -/

/-- Settles O16: SETB grows as SET does, and writes the whole byte. -/
theorem setbWritesOneByte : Obligations.SetbWritesOneByte := by
  intro d imm s
  refine ⟨fun hv h0 hmax => ?_, fun hv => fails_noContainer (namesNoContainer_of_invalid rfl hv),
    fun hv ha => fails_invalidArgument (namesNoContainer_of_valid rfl hv) (decide_eq_true ha),
    fun hv h0 hc => fails_capacityExceeded (namesNoContainer_of_valid rfl hv) (decide_eq_false h0.not_gt) rfl
      (decide_eq_true hc), WordShape.setb d imm⟩
  have hlen : ((effectSetb d imm s).slot d).len = max (s.slot d).len ((sint32 s.a).toNat + 1) := by simp [effectSetb]
  refine ⟨_, exec_of_check (i := .setb d imm) ((checkSetb_eq_ok d s).2 ⟨hv, h0, hmax⟩), ?_, ?_, hlen, ?_, fun i hi => ?_⟩
  · exact OnlySlot.wroteSlot (((onlySlot_grow ..).trans (onlySlot_writeByte ..)).trans (onlySlot_raiseSize ..))
  · simp [effectOf, effectSetb, hv]
  · simp [effectOf, effectSetb]
  · replace hi : i < max _ _ := hlen ▸ hi
    rw [byte_complete, effectOf, effectSetb, byte_raiseSize, byte_writeByte, byte_grow_of_lt s d hi]

end Sys2Proof.Machine
end

section
/-! SUPPORT. The range commands: SETR, SETRB, GETRB (41_range). -/

namespace Sys2Proof.Machine

open Laws

/-! ## Storage that an operation on a slot does not reach -/

theorem get?_grow_of_le (s : State) (k : SlotId) {n i : Nat} (hi : max (s.slot k).len n ≤ i) :
    ((s.grow k n).slot k).buf.get? i = (s.slot k).buf.get? i := by
  rw [slot_grow_self]
  simp only [Mem.get?_fill]
  exact if_neg (by omega)

theorem get?_fillBytes_of_le (s : State) (k : SlotId) (f : Nat → Byte) {start n i : Nat} (hi : start + n ≤ i) :
    ((s.fillBytes k f start n).slot k).buf.get? i = (s.slot k).buf.get? i := by
  rw [slot_fillBytes_self]
  simp only [Mem.get?_fill]
  exact if_neg (by omega)

theorem get?_maskByte_ne (s : State) (k : SlotId) {i j : Nat} (m : Byte) (v : Bool) (hi : i ≠ j) :
    ((s.maskByte k j m v).slot k).buf.get? i = (s.slot k).buf.get? i := by
  rw [State.maskByte, slot_writeByte_self]
  simp only [Mem.get?_write]
  exact if_neg hi

theorem get?_raiseSize (s : State) (k : SlotId) (v i : Nat) :
    ((s.raiseSize k v).slot k).buf.get? i = (s.slot k).buf.get? i := by
  rw [slot_raiseSize_self]

theorem get?_writeRange_of_lt (k : SlotId) {start stop i : Nat} (v : Bool) (s : State) (hs : start < stop)
    (hi : byteIndex (stop - 1) < i) : ((writeRange k start stop v s).slot k).buf.get? i = (s.slot k).buf.get? i := by
  have hle : byteIndex start ≤ byteIndex (stop - 1) := by unfold byteIndex; omega
  unfold writeRange
  dsimp only
  split
  · rw [get?_maskByte_ne _ _ _ _ (by omega), get?_fillBytes_of_le _ _ _ (by omega)]
  · rw [get?_maskByte_ne _ _ _ _ (by omega), get?_maskByte_ne _ _ _ _ (by omega), get?_fillBytes_of_le _ _ _ (by omega)]

/-! ## What a write of the bits `[start, stop)` leaves in a slot -/

/-- From `s` to `t` the bits `[start, stop)` of slot `d` became `v`, with exact-fit growth and the three laws of 41_range R134;
the storage beyond the new length stayed. -/
structure RangeWritten (d : SlotId) (start stop : Nat) (v : Bool) (s t : State) : Prop where
  valid : (t.slot d).valid = true
  len : (t.slot d).len = max (s.slot d).len (byteIndex (stop - 1) + 1)
  size : (t.slot d).size = max (s.slot d).size stop
  bits : ∀ q, q < 8 * (t.slot d).len →
    t.readBit d q = if start ≤ q ∧ q < stop then v else if q < 8 * (s.slot d).len then s.readBit d q else false
  beyond : ∀ i, (t.slot d).len ≤ i → (t.slot d).buf.get? i = (s.slot d).buf.get? i

section
variable {d : SlotId} {start mid stop maxBytes : Nat} {v : Bool} {s t u : State}

/-- `RangeWritten` leaves one slot: below the length the bits give the bytes, and beyond it nothing changed. -/
theorem RangeWritten.slot_eq (ht : RangeWritten d start stop v s t) (hu : RangeWritten d start stop v s u)
    (hbt : t.Backed maxBytes d) (hbu : u.Backed maxBytes d) : t.slot d = u.slot d := by
  have hlen : (t.slot d).len = (u.slot d).len := ht.len.trans hu.len.symm
  have hbuf : (t.slot d).buf = (u.slot d).buf := by
    refine Mem.ext hbt.1 hbu.1 fun i => ?_
    rcases Nat.lt_or_ge i (t.slot d).len with hi | hi
    · rw [get?_of_backed hbt hi, get?_of_backed hbu (hlen ▸ hi)]
      refine congrArg some (BitVec.eq_of_getLsbD_eq fun j hj => ?_)
      rw [← readBit_mul_add t d i hj, ← readBit_mul_add u d i hj, ht.bits _ (by omega), hu.bits _ (by omega)]
    · rw [ht.beyond i hi, hu.beyond i (hlen ▸ hi)]
  have hvalid : (t.slot d).valid = (u.slot d).valid := ht.valid.trans hu.valid.symm
  have hsize : (t.slot d).size = (u.slot d).size := ht.size.trans hu.size.symm
  calc t.slot d = ⟨(t.slot d).valid, (t.slot d).len, (t.slot d).size, (t.slot d).buf⟩ := rfl
    _ = u.slot d := by rw [hvalid, hlen, hsize, hbuf]

/-- Two ranges that meet, written one after the other, are their union written. -/
theorem RangeWritten.trans (h1 : start < mid) (h2 : mid < stop) (ht : RangeWritten d start mid v s t)
    (hu : RangeWritten d mid stop v t u) : RangeWritten d start stop v s u := by
  have hlt := ht.len
  have hlu := hu.len
  unfold byteIndex at hlt hlu
  refine ⟨hu.valid, ?_, by rw [hu.size, ht.size]; omega, fun q hq => ?_, fun i hi => ?_⟩
  · unfold byteIndex
    omega
  · rw [hu.bits q hq]
    by_cases hold : q < 8 * (t.slot d).len
    · rw [if_pos hold, ht.bits q hold, ← ite_or]
      exact if_congr (by omega) rfl rfl
    · rw [if_neg hold, if_neg (c := q < 8 * (s.slot d).len) (by omega)]
      exact if_congr (by omega) rfl rfl
  · rw [hu.beyond i hi, ht.beyond i (by omega)]

/-- SET writes the range of one bit (41_range R131, corner cases). -/
theorem rangeWritten_writeBitGrowing (hv : (s.slot d).valid = true) (p : Nat) (v : Bool) :
    RangeWritten d p (p + 1) v s ((writeBitGrowing d p v s).complete .ok) := by
  obtain ⟨-, hvalid, hlen, hsize, hbits⟩ := wroteBit_writeBitGrowing hv p v
  refine ⟨hvalid, hlen, hsize, fun q hq => ?_, fun i hi => ?_⟩
  · rw [hbits q hq]
    exact if_congr (by omega) rfl rfl
  · rw [hlen] at hi
    have hne : i ≠ byteIndex p := by unfold byteIndex; omega
    rw [slot_complete, writeBitGrowing, get?_raiseSize, State.writeBit, get?_maskByte_ne _ _ _ _ hne]
    exact get?_grow_of_le s d hi

/-- SETR writes its range (41_range R131, R134). -/
theorem rangeWritten_effectSetr (hv : (s.slot d).valid = true) (hs : (sint32 s.a).toNat < (sint32 s.b).toNat) (v : Bool) :
    RangeWritten d (sint32 s.a).toNat (sint32 s.b).toNat v s (effectSetr d v s) := by
  have hlen : ((effectSetr d v s).slot d).len = max (s.slot d).len (byteIndex ((sint32 s.b).toNat - 1) + 1) := by
    simp [effectSetr]
  refine ⟨by simp [effectSetr, hv], hlen, by simp [effectSetr], fun q hq => ?_, fun i hi => ?_⟩
  · rw [hlen] at hq
    rw [effectSetr, readBit_writeRange d hs, readBit_raiseSize, readBit_grow_of_lt s d hq]
  · rw [hlen] at hi
    rw [effectSetr, get?_writeRange_of_lt _ _ _ hs (by omega), get?_raiseSize, get?_grow_of_le _ _ hi]

end

/-! ## SETR -/

/-- SETR's check phase passes in exact integers as in natural numbers. -/
theorem checkSetr_ok {d : SlotId} {s : State} (hv : (s.slot d).valid = true) (h0 : 0 ≤ sint32 s.a) (hlt : sint32 s.a < sint32 s.b)
    (hmax : (sint32 s.b - 1) / 8 + 1 ≤ s.params.maxBytes) : checkSetr d s = .ok :=
  (checkSetr_eq_ok d s).2 ⟨hv, ⟨h0, hlt⟩, by unfold byteIndex; omega⟩

/-- Settles O19: `rangeWritten_effectSetr`, in exact integers. -/
theorem setrWritesTheRange : Obligations.SetrWritesTheRange := by
  intro d v s
  refine ⟨fun hv h0 hlt hmax => ?_, fun hv => fails_noContainer (namesNoContainer_of_invalid rfl hv),
    fun hv hr => fails_invalidArgument (namesNoContainer_of_valid rfl hv) (decide_eq_true hr),
    fun hv h0 hlt hc => fails_capacityExceeded (namesNoContainer_of_valid rfl hv) (decide_eq_false (by omega)) rfl
      (decide_eq_true hc), WordShape.setr d v⟩
  obtain ⟨hvalid, hlen, hsize, hbits, -⟩ := rangeWritten_effectSetr hv (by omega) v
  have only : OnlySlot d s (effectSetr d v s) :=
    ((onlySlot_grow ..).trans (onlySlot_raiseSize ..)).trans (onlySlot_writeRange ..)
  refine ⟨_, exec_of_check (i := .setr d v) (checkSetr_ok hv h0 hlt hmax), only.wroteSlot, hvalid, ?_, ?_, fun q hq => ?_⟩
  · rw [slot_complete, effectOf, hlen]
    unfold byteIndex
    omega
  · rw [slot_complete, effectOf, hsize]
    omega
  · rw [readBit_complete, effectOf, hbits q hq]
    exact if_congr (by omega) rfl rfl

/-! ## SETR and the SETs of its positions -/

/-- A bit position that fits SET's operand is read back from A. -/
theorem sint32_ofNat {p : Nat} (hp : p < 2 ^ 31) : sint32 (BitVec.ofNat 32 p) = p := by
  have hn : (BitVec.ofNat 32 p).toNat = p := Nat.mod_eq_of_lt (by omega)
  rw [sint32, BitVec.toInt_eq_toNat_of_lt (by omega), hn]

/-- The first SET of a sequence passes its check, writes its bit and keeps the slot's invariant. -/
theorem setEach_cons {d : SlotId} {s : State} {p : Nat} (hv : (s.slot d).valid = true)
    (hinv : Slot.Inv s.params.maxBytes (s.slot d)) (hp : p < 2 ^ 31) (hmax : byteIndex p + 1 ≤ s.params.maxBytes) (v : Bool)
    (ps : List Nat) :
    ∃ t, setEach d v s (p :: ps) = setEach d v t ps ∧ RangeWritten d p (p + 1) v s t ∧
      Slot.Inv s.params.maxBytes (t.slot d) ∧ t.params = s.params := by
  have ha : sint32 (BitVec.ofNat 32 p) = p := sint32_ofNat hp
  have hc : checkSet d { s with a := BitVec.ofNat 32 p } = .ok :=
    (checkSet_eq_ok d _).2 ⟨hv, ha ▸ Int.natCast_nonneg p, by simpa only [ha, Int.toNat_natCast] using hmax⟩
  have heffect : effectSet d v { s with a := BitVec.ofNat 32 p } = { writeBitGrowing d p v s with a := BitVec.ofNat 32 p } := by
    rw [effectSet, ha, Int.toNat_natCast, writeBitGrowing_with_a]
  obtain ⟨hvalid, hlen, hsize, hbits, hbeyond⟩ := rangeWritten_writeBitGrowing hv p v
  refine ⟨{ (writeBitGrowing d p v s).complete .ok with a := BitVec.ofNat 32 p }, ?_, ⟨hvalid, hlen, hsize, hbits, hbeyond⟩,
    slotInv_writeBitGrowing hinv hv hmax v, by simp [writeBitGrowing]⟩
  rw [setEach, exec_of_check (i := .set d v) hc, effectOf, heffect]
  rfl

/-- SETs of the positions of a range, lowest first, write the range and keep the slot's invariant (41_range R135). -/
theorem rangeWritten_setEach {d : SlotId} (v : Bool) {start n : Nat} {s : State} (hv : (s.slot d).valid = true)
    (hinv : Slot.Inv s.params.maxBytes (s.slot d)) (hstop : start + n < 2 ^ 31)
    (hmax : byteIndex (start + n) + 1 ≤ s.params.maxBytes) :
    RangeWritten d start (start + (n + 1)) v s (setEach d v s (List.range' start (n + 1))) ∧
      Slot.Inv s.params.maxBytes ((setEach d v s (List.range' start (n + 1))).slot d) := by
  induction n generalizing start s with
  | zero =>
    obtain ⟨t, he, ht, hinv', -⟩ := setEach_cons (p := start) hv hinv hstop hmax v []
    rw [List.range'_one, he]
    exact ⟨ht, hinv'⟩
  | succ n ih =>
    have hstart : byteIndex start + 1 ≤ s.params.maxBytes := by unfold byteIndex at hmax ⊢; omega
    obtain ⟨t, he, ht, hinv', hp⟩ := setEach_cons hv hinv (by omega) hstart v (List.range' (start + 1) (n + 1))
    have hnext : start + 1 + n = start + (n + 1) := by omega
    obtain ⟨hrest, hinv''⟩ := ih (start := start + 1) ht.valid (hp ▸ hinv') (by omega) (by rwa [hp, hnext])
    rw [List.range'_succ, he]
    rw [← Nat.add_assoc, hnext] at hrest
    exact ⟨ht.trans (by omega) (by omega) hrest, hp ▸ hinv''⟩

/-- Settles O20: both write the range, and what that leaves in the slot is determined. -/
theorem setrIsTheSetsOfItsPositions : Obligations.SetrIsTheSetsOfItsPositions := by
  intro d v s t hinv hv h0 hlt hmax ht
  obtain ⟨hp, hslot, -⟩ := hinv
  have hb : sint32 s.b < 2 ^ 31 := BitVec.toInt_lt
  have hc : checkSetr d s = .ok := checkSetr_ok hv h0 hlt hmax
  rw [exec_of_check (i := .setr d v) hc] at ht
  injection ht with ht
  obtain ⟨n, hn⟩ : ∃ n, (sint32 s.b).toNat = (sint32 s.a).toNat + (n + 1) :=
    ⟨(sint32 s.b).toNat - (sint32 s.a).toNat - 1, by omega⟩
  have hsetr := rangeWritten_effectSetr hv (by omega) v
  obtain ⟨hsets, hinv'⟩ := rangeWritten_setEach v (start := (sint32 s.a).toNat) (n := n) hv (hslot d) (by omega)
    (by unfold byteIndex; omega)
  rw [← ht, slot_complete, effectOf, show (sint32 s.b - sint32 s.a).toNat = n + 1 by omega]
  exact hsets.slot_eq (hn ▸ hsetr) (backed_of_slotInv hinv') (backed_of_slotInv (slotInv_effectOf (i := .setr d v) hp hslot hc))

/-! ## SETRB -/

/-- Settles O21: SETRB grows as SETR does, and writes whole bytes. -/
theorem setrbFillsTheBytes : Obligations.SetrbFillsTheBytes := by
  intro d imm s
  refine ⟨fun hv h0 hlt hmax => ?_, fun hv => fails_noContainer (namesNoContainer_of_invalid rfl hv),
    fun hv hr => fails_invalidArgument (namesNoContainer_of_valid rfl hv) (decide_eq_true hr),
    fun hv h0 hlt hc => fails_capacityExceeded (namesNoContainer_of_valid rfl hv) (decide_eq_false (by omega)) rfl
      (decide_eq_true hc), WordShape.setrb d imm⟩
  have only : OnlySlot d s (effectSetrb d imm s) :=
    ((onlySlot_grow ..).trans (onlySlot_fillBytes ..)).trans (onlySlot_raiseSize ..)
  have hlen : ((effectSetrb d imm s).slot d).len = max (s.slot d).len (sint32 s.b).toNat := by simp [effectSetrb]
  have hsize : ((effectSetrb d imm s).slot d).size = max (s.slot d).size (8 * (sint32 s.b).toNat) := by simp [effectSetrb]
  refine ⟨_, exec_of_check (i := .setrb d imm) ((checkSetrb_eq_ok d s).2 ⟨hv, ⟨h0, hlt⟩, hmax⟩), only.wroteSlot, ?_, ?_, ?_,
    fun i hi => ?_⟩
  · simp [effectOf, effectSetrb, hv]
  · rw [slot_complete, effectOf, hlen]
    omega
  · rw [slot_complete, effectOf, hsize]
    omega
  · replace hi : i < max _ _ := hlen ▸ hi
    rw [byte_complete, effectOf, effectSetrb, byte_raiseSize, byte_fillBytes, byte_grow_of_lt s d hi]
    exact if_congr (by omega) rfl rfl

/-! ## GETRB -/

/-- XBUF after GETRB: the slice, and the old bytes above it (41_range R133). -/
theorem xread_effectGetrb (d : SlotId) (s : State) (i : Nat) : (effectGetrb d s).xread i =
    if i < (sint32 s.b).toNat - (sint32 s.a).toNat then s.byte d ((sint32 s.a).toNat + i) else s.xread i := by
  unfold effectGetrb State.xread
  simp only [Mem.get?_fill, Nat.zero_le, true_and, Nat.zero_add]
  split <;> rfl

/-- Settles O22: the slice's length fits XLEN since B is below 2^31. -/
theorem getrbCopiesTheSlice : Obligations.GetrbCopiesTheSlice := by
  intro d s
  refine ⟨fun hv h0 hlt hle => ?_, fun hv => fails_noContainer (namesNoContainer_of_invalid rfl hv),
    fun hv hr => fails_invalidArgument (namesNoContainer_of_valid rfl hv) (decide_eq_true hr),
    fun hv h0 hlt hc => fails_outOfRange (namesNoContainer_of_valid rfl hv) (decide_eq_false (by omega)) (decide_eq_true hc),
    WordShape.getrb d⟩
  have hb : sint32 s.b < 2 ^ 31 := BitVec.toInt_lt
  refine ⟨_, exec_of_check (i := .getrb d) ((checkGetrb_eq_ok d s).2 ⟨hv, ⟨h0, hlt⟩, hle⟩), complete_ok _, ?_, fun i => ?_⟩
  · show ((BitVec.ofNat 32 ((sint32 s.b).toNat - (sint32 s.a).toNat)).toNat : Int) = _
    rw [BitVec.toNat_ofNat, Nat.mod_eq_of_lt (by omega)]
    omega
  · rw [xread_complete, effectOf, xread_effectGetrb]
    exact if_congr (by omega) rfl rfl

end Sys2Proof.Machine
end

section
/-! SUPPORT. The bitwise logic unit: AND, OR, XOR, NOR, XNOR, NAND, NOT (42_logic). -/

namespace Sys2Proof.Machine

open Laws

/-! ## The operation kinds and the operand -/

/-- A byte operation applies the truth table `g` to each pair of bits at one position (42_logic R151). -/
def FollowsTable (f : Byte → Byte → Byte) (g : Bool → Bool → Bool) : Prop :=
  ∀ x y j, j < 8 → (f x y).getLsbD j = g (x.getLsbD j) (y.getLsbD j)

theorem followsTable_byteAnd : FollowsTable byteAnd fun x y => x && y := fun _ _ _ _ => BitVec.getLsbD_and

theorem followsTable_byteOr : FollowsTable byteOr fun x y => x || y := fun _ _ _ _ => BitVec.getLsbD_or

theorem followsTable_byteXor : FollowsTable byteXor fun x y => x != y := fun _ _ _ _ => BitVec.getLsbD_xor

/-- The complement of an operation follows the complement of its table. -/
theorem FollowsTable.not {f : Byte → Byte → Byte} {g : Bool → Bool → Bool} (h : FollowsTable f g) :
    FollowsTable (fun x y => ~~~(f x y)) fun x y => !(g x y) := by
  intro x y j hj
  rw [BitVec.getLsbD_not, h x y j hj, decide_eq_true hj, Bool.true_and]

theorem followsTable_byteXnor : FollowsTable byteXnor fun x y => x == y := fun x y j hj =>
  (followsTable_byteXor.not x y j hj).trans (Bool.not_not _)

/-- The operand's bit: the slot's own, or 0 beyond its length (42_logic R150). -/
theorem getLsbD_opByte (s : State) (o : SlotId) (p : Nat) :
    (s.opByte o (byteIndex p)).getLsbD (bitOffset p) = if p < 8 * (s.slot o).len then s.readBit o p else false := by
  have hown : byteIndex p < (s.slot o).len ↔ p < 8 * (s.slot o).len := by unfold byteIndex; omega
  rw [State.opByte]
  simp only [hown]
  split
  · rfl
  · exact BitVec.getLsbD_zero

/-- Each backing byte of the receiver after a binary command, the two slots being one or not (42_logic R152). -/
theorem byte_effectLogic (f : Byte → Byte → Byte) (d o : SlotId) (s : State) {i : Nat} (hi : i < (s.slot d).len) :
    (effectLogic f d o s).byte d i = f (s.byte d i) (s.opByte o i) := by
  rw [effectLogic, byte_fillBytes, if_pos ⟨Nat.zero_le i, by omega⟩]

/-- Each backing bit of the receiver after a binary command, by the operation's truth table (42_logic R151, R152). -/
theorem readBit_effectLogic {f : Byte → Byte → Byte} {g : Bool → Bool → Bool} (hf : FollowsTable f g) (d o : SlotId) (s : State)
    {p : Nat} (hp : p < 8 * (s.slot d).len) : (effectLogic f d o s).readBit d p =
      g (s.readBit d p) (if p < 8 * (s.slot o).len then s.readBit o p else false) := by
  have hbyte : byteIndex p < (s.slot d).len := by unfold byteIndex; omega
  rw [State.readBit, byte_effectLogic f d o s hbyte, hf _ _ (bitOffset p) (Nat.mod_lt p (by decide)), getLsbD_opByte]
  rfl

/-! ## The six binary commands -/

/-- A binary command has the checks and the effect of R152 with an operation of its own, which follows its truth table. -/
theorem exists_operation_of_mem_binaryKinds : ∀ k ∈ binaryKinds, ∃ f, FollowsTable f k.2.2 ∧
    (∀ d o s, checkOf (k.1 d o) s = checkLogic d o s) ∧ ∀ d o s, effectOf (k.1 d o) s = effectLogic f d o s := by
  simp only [binaryKinds, List.forall_mem_cons]
  refine ⟨⟨byteAnd, followsTable_byteAnd, ?_, ?_⟩, ⟨byteOr, followsTable_byteOr, ?_, ?_⟩,
    ⟨byteXor, followsTable_byteXor, ?_, ?_⟩, ⟨byteNor, followsTable_byteOr.not, ?_, ?_⟩,
    ⟨byteXnor, followsTable_byteXnor, ?_, ?_⟩, ⟨byteNand, followsTable_byteAnd.not, ?_, ?_⟩, by simp⟩
  all_goals exact fun _ _ _ => rfl

/-- A binary command's word has its kind's match under the mask that leaves D and S free (42_logic R153 to R158). -/
theorem binaryKinds_word (d o : SlotId) : ∀ k ∈ binaryKinds, encode (k.1 d o) &&& 0xFFFF00FF = k.2.1 := by
  simp only [binaryKinds, List.forall_mem_cons]
  exact ⟨WordShape.and d o, WordShape.or d o, WordShape.xor d o, WordShape.nor d o, WordShape.xnor d o, WordShape.nand d o,
    by simp⟩

/-- A binary command needs a container in both slots (42_logic R152). -/
theorem checkLogic_eq_noContainer {d o : SlotId} {s : State} (h : (s.slot d).valid = false ∨ (s.slot o).valid = false) :
    checkLogic d o s = .noContainer := by
  rw [checkLogic, firstError_cons, firstError_cons]
  rcases h with h | h <;> simp [State.noContainer, h]

/-- Settles O23: the kinds differ in their operation alone, and `readBit_effectLogic` is about any of them. -/
theorem binaryLogicFollowsTheTruthTables : Obligations.BinaryLogicFollowsTheTruthTables := by
  intro k hk d o s
  obtain ⟨f, hf, hcheck, heffect⟩ := exists_operation_of_mem_binaryKinds k hk
  refine ⟨fun hd ho => ?_, fun hv => ?_, binaryKinds_word d o k hk⟩
  · have hok : checkOf (k.1 d o) s = .ok := (hcheck d o s).trans ((checkLogic_eq_ok d o s).2 ⟨hd, ho⟩)
    have only : OnlySlot d s (effectLogic f d o s) := onlySlot_fillBytes ..
    refine ⟨_, (exec_of_check hok).trans (by rw [heffect]), only.wroteSlot, ?_, ?_, ?_, fun p hp => ?_⟩
    · rw [slot_complete, effectLogic, valid_fillBytes, hd]
    · rw [slot_complete, effectLogic, len_fillBytes]
    · rw [slot_complete, effectLogic, size_fillBytes]
    · rw [readBit_complete, readBit_effectLogic hf d o s hp]
  · have hcode : reportedCode (k.1 d o) s = .noContainer := by
      rw [← checkOf_eq_reportedCode, hcheck, checkLogic_eq_noContainer hv]
    exact fails_of_reportedCode hcode (by decide)

/-! ## NOT -/

/-- Each backing byte after NOT (42_logic R159). -/
theorem byte_effectNot (d : SlotId) (s : State) {i : Nat} (hi : i < (s.slot d).len) :
    (effectNot d s).byte d i = ~~~(s.byte d i) := by
  rw [effectNot, byte_fillBytes, if_pos ⟨Nat.zero_le i, by omega⟩]

/-- Settles O24: a byte's complement is its difference from 0xFF. -/
theorem notComplementsEveryBackingByte : Obligations.NotComplementsEveryBackingByte := by
  intro d s
  refine ⟨fun hv => ?_, fun hv => fails_noContainer (namesNoContainer_of_invalid rfl hv), WordShape.not d⟩
  have only : OnlySlot d s (effectNot d s) := onlySlot_fillBytes ..
  refine ⟨_, exec_of_check (i := .not d) ((checkNot_eq_ok d s).2 hv), only.wroteSlot, ?_, ?_, ?_, fun i hi => ?_⟩
  · rw [slot_complete, effectOf, effectNot, valid_fillBytes, hv]
  · rw [slot_complete, effectOf, effectNot, len_fillBytes]
  · rw [slot_complete, effectOf, effectNot, size_fillBytes]
  · rw [byte_complete, effectOf, byte_effectNot d s hi, BitVec.toNat_not]

/-- Settles O25: NOT leaves a container of the same length, so O24 is true of the second NOT too. -/
theorem notTwiceRestores : Obligations.NotTwiceRestores := by
  intro d s hv
  obtain ⟨hfirst, -⟩ := notComplementsEveryBackingByte d s
  obtain ⟨t, ht, -, hvalid, hlen, hsize, hbytes⟩ := hfirst hv
  obtain ⟨hsecond, -⟩ := notComplementsEveryBackingByte d t
  obtain ⟨u, hu, -, -, hlen', hsize', hbytes'⟩ := hsecond hvalid
  refine ⟨t, u, ht, hu, fun i hi => BitVec.eq_of_toNat_eq ?_, hlen, hsize, hlen'.trans hlen, hsize'.trans hsize⟩
  have hbyte : (s.byte d i).toNat < 2 ^ 8 := (s.byte d i).isLt
  rw [hbytes' i (hlen ▸ hi), hbytes i hi]
  omega

end Sys2Proof.Machine
end

section
/-! SUPPORT. The constructor commands: NEW, LDINT, LDBYTES, CLONE (43_codec). -/

namespace Sys2Proof.Machine

open Laws

/-- A constructor whose check passed leaves a container of its own in its slot, whatever was there (43_codec R175). -/
theorem exec_constructs {i : Instr} {d : SlotId} {s : State} {len size : Nat} {f : Nat → Byte} (hc : checkOf i s = .ok)
    (he : effectOf i s = s.construct d len size f) :
    ∃ t, exec i s = .next t ∧ WroteSlot d s t ∧ (t.slot d).valid = true ∧ (t.slot d).len = len ∧ (t.slot d).size = size ∧
      ∀ j, j < len → t.byte d j = f j := by
  have hslot := slot_construct_self s d len size f
  refine ⟨_, (exec_of_check hc).trans (by rw [he]), (onlySlot_construct s d len size f).wroteSlot, ?_, ?_, ?_,
    byte_construct s d len size f⟩
  · rw [slot_complete, hslot]
  · rw [slot_complete, hslot]
  · rw [slot_complete, hslot]

/-! ## NEW -/

/-- Settles O27: NEW constructs zeros, and its capacity check is the same in natural numbers and in exact integers. -/
theorem newConstructsZeros : Obligations.NewConstructsZeros := by
  intro d s
  refine ⟨fun h0 hmax => ?_, fun ha => fails_invalidArgument rfl (decide_eq_true ha),
    fun h0 hc => fails_capacityExceeded rfl (decide_eq_false h0.not_gt) rfl (decide_eq_true hc), WordShape.new d⟩
  have hc : checkNew s = .ok := (checkNew_eq_ok s).2 ⟨h0, not_lt.1 (mt (lt_ceil8_toNat_iff h0 _).1 hmax.not_gt)⟩
  obtain ⟨t, ht, hwrote, hvalid, hlen, hsize, hbytes⟩ := exec_constructs (i := .new d) hc rfl
  refine ⟨t, ht, hwrote, hvalid, ?_, ?_, hlen ▸ hbytes⟩
  · rw [hlen]
    unfold ceil8
    omega
  · rw [hsize]
    exact Int.toNat_of_nonneg h0

/-! ## LDINT -/

/-- LDINT's value as a number: B above A (43_codec R172). -/
theorem integerOperand_toNat (a b : Word) : (integerOperand a b).toNat = b.toNat * 2 ^ 32 + a.toNat := toNat_append_eq_add b a

/-- Byte `i` of a value, as the digit `i` of its number in base 256 (20_memory R61). -/
theorem valueByte_toNat (v : BitVec 64) (i : Nat) : (valueByte v i).toNat = v.toNat / 256 ^ i % 256 := by
  rw [valueByte, BitVec.extractLsb'_toNat, Nat.shiftRight_eq_div_pow, Nat.pow_mul]

/-- Bytes that are the base-256 digits of a number read back as that number, little-endian (20_memory R61). -/
theorem memRead_of_digits {s : State} {k : SlotId} {v i n : Nat}
    (h : ∀ j, i ≤ j → j < i + n → (s.byte k j).toNat = v / 256 ^ j % 256) : s.memRead k i n = v / 256 ^ i % 256 ^ n := by
  induction n generalizing i with
  | zero => rw [State.memRead, Nat.pow_zero, Nat.mod_one]
  | succ n ih =>
    rw [State.memRead, h i le_rfl (by omega), ih fun j h1 h2 => h j (by omega) (by omega), Nat.pow_succ, Nat.pow_succ',
      Nat.mod_mul, Nat.div_div_eq_div_mul]

/-- The width codes are the logarithms of the widths in bytes (30_encoding R89). -/
theorem widthBytes_eq (w : IntWidth) : widthBytes w = 2 ^ w.code.toNat := by cases w <;> rfl

/-- Settles O28: the bytes of B:A are its base-256 digits, and the digits give the number back. -/
theorem ldintStoresLittleEndian : Obligations.LdintStoresLittleEndian := by
  intro d w s
  refine ⟨?_, WordShape.ldint d w⟩
  rw [← widthBytes_eq, ← integerOperand_toNat]
  obtain ⟨t, ht, hwrote, hvalid, hlen, hsize, hbytes⟩ := exec_constructs (i := .ldint d w) (s := s) rfl rfl
  have hdigits (i : Nat) (hi : i < widthBytes w) : (t.byte d i).toNat = (integerOperand s.a s.b).toNat / 256 ^ i % 256 := by
    rw [hbytes i hi, valueByte_toNat]
  refine ⟨t, ht, hwrote, hvalid, hlen, hsize, hdigits, ?_⟩
  rw [memRead_of_digits fun j _ hj => hdigits j (by omega), Nat.pow_zero, Nat.div_one]

/-! ## LDBYTES and CLONE -/

/-- Settles O29: LDBYTES constructs the bytes of XBUF. -/
theorem ldbytesLoadsXbuf : Obligations.LdbytesLoadsXbuf := fun d s =>
  ⟨fun hmax => exec_constructs (i := .ldbytes d) ((checkLdbytes_eq_ok s).2 hmax) rfl,
    fun hc => fails_capacityExceeded rfl rfl rfl (decide_eq_true hc), WordShape.ldbytes d⟩

/-- Settles O30: CLONE constructs the source's bytes in another slot, and has no effect on the source's own. -/
theorem cloneCopiesTheContainer : Obligations.CloneCopiesTheContainer := by
  intro d o s
  refine ⟨fun hv hne => ?_, fun hv heq => ?_, fun hv => fails_noContainer (by simp [namesNoContainer, Instr.other, hv]),
    WordShape.clone d o⟩
  · exact exec_constructs (i := .clone d o) ((checkClone_eq_ok o s).2 hv) (if_neg hne)
  · have he : effectClone d o s = s := if_pos heq
    rw [exec_of_check (i := .clone d o) ((checkClone_eq_ok o s).2 hv), effectOf, he, complete_ok]

end Sys2Proof.Machine
end

section
/-! SUPPORT. The host-side text forms: bytes as bits, the binary-digit parser and the renderer (43_codec R177 to R180). -/

namespace Sys2Proof.Machine

/-! ## Bits packed into bytes -/

/-- The bits of a packed byte, while the packing goes on (43_codec R177). -/
theorem getLsbD_packFold (f : Nat → Bool) {n j : Nat} (hn : n ≤ 8) (hj : j < 8) :
    ((List.range n).foldl (fun b j => if f j then b ||| bitMask j else b) (0x00 : Byte)).getLsbD j = (decide (j < n) && f j) := by
  induction n with
  | zero => exact BitVec.getLsbD_zero
  | succ n ih =>
    specialize ih (Nat.le_of_succ_le hn)
    have hlt : j < n + 1 ↔ j < n ∨ j = n := Nat.lt_succ_iff_lt_or_eq
    simp only [List.range_succ, List.foldl_append, List.foldl_cons, List.foldl_nil, hlt]
    split
    · next hf =>
      rw [BitVec.getLsbD_or, ih, getLsbD_bitMask n j hj, Nat.mod_eq_of_lt hn]
      by_cases hjn : j = n <;> simp [hjn, hf]
    · next hf =>
      rw [ih]
      by_cases hjn : j = n <;> simp [hjn, hf]

theorem getLsbD_packByte (f : Nat → Bool) {j : Nat} (hj : j < 8) : (packByte f).getLsbD j = f j := by
  rw [packByte, getLsbD_packFold f le_rfl hj, decide_eq_true hj, Bool.true_and]

@[simp] theorem length_packBits (bits : List Bool) : (packBits bits).length = ceil8 bits.length := by simp [packBits]

/-- Bit `j` of byte `i` is the list's bit `8 i + j`, and beyond the list 0 (43_codec R177). -/
theorem getLsbD_packBits (bits : List Bool) (i : Nat) {j : Nat} (hj : j < 8) :
    ((packBits bits).getD i 0).getLsbD j = bits.getD (8 * i + j) false := by
  rcases Nat.lt_or_ge i (ceil8 bits.length) with hi | hi
  · have hbyte : (packBits bits).getD i 0 = packByte fun j => bits.getD (8 * i + j) false := by
      simp [packBits, List.getD_eq_getElem?_getD, hi]
    rw [hbyte, getLsbD_packByte _ hj]
  · rw [List.getD_eq_default _ _ (by simpa using hi), List.getD_eq_default _ _ (by unfold ceil8 at hi; omega)]
    exact BitVec.getLsbD_zero

/-- A byte's bits, bit 0 first. -/
def byteBits (b : Byte) : List Bool := (List.range 8).map b.getLsbD

@[simp] theorem length_byteBits (b : Byte) : (byteBits b).length = 8 := by simp [byteBits]

/-- The bits of a list of bytes, byte 0 first. -/
theorem getD_flatMap_byteBits (bytes : List Byte) (i : Nat) {j : Nat} (hj : j < 8) :
    (bytes.flatMap byteBits).getD (8 * i + j) false = (bytes.getD i 0).getLsbD j := by
  induction bytes generalizing i with
  | nil => exact BitVec.getLsbD_zero.symm
  | cons b bytes ih =>
    rw [List.flatMap_cons]
    cases i with
    | zero =>
      rw [List.getD_append _ _ _ _ (by simpa using hj)]
      simp [byteBits, List.getD_eq_getElem?_getD, hj]
    | succ i =>
      rw [List.getD_append_right _ _ _ _ (by rw [length_byteBits]; omega), length_byteBits,
        show 8 * (i + 1) + j - 8 = 8 * i + j by omega, ih]
      rfl

theorem length_flatMap_byteBits (bytes : List Byte) : (bytes.flatMap byteBits).length = 8 * bytes.length := by
  simp [List.length_flatMap, Nat.mul_comm]

/-- Packing the bits of bytes gives the bytes back. -/
theorem packBits_flatMap_byteBits (bytes : List Byte) : packBits (bytes.flatMap byteBits) = bytes := by
  have hlen : (packBits (bytes.flatMap byteBits)).length = bytes.length := by
    rw [length_packBits, length_flatMap_byteBits]
    unfold ceil8
    omega
  refine List.ext_getElem hlen fun i h1 h2 => BitVec.eq_of_getLsbD_eq fun j hj => ?_
  rw [← List.getD_eq_getElem _ 0 h1, ← List.getD_eq_getElem _ 0 h2, getLsbD_packBits _ _ hj, getD_flatMap_byteBits _ _ hj]

/-! ## The parser -/

/-- The parser's condition: nothing but digits and whitespace (43_codec R177, R178). -/
theorem digitsOf_all_isDigit_iff (text : List Char) :
    (digitsOf text).all isDigit = true ↔ ∀ c ∈ text, c = '0' ∨ c = '1' ∨ isSpace c = true := by
  simp only [digitsOf, List.all_filter, List.all_eq_true, isDigit, Bool.not_not, Bool.or_eq_true, beq_iff_eq]
  exact forall₂_congr fun c _ => by tauto

theorem parse_of_digits {text : List Char} (h : (digitsOf text).all isDigit = true) :
    parse text = .ok { size := (digitsOf text).length, bytes := packBits (bitsOf (digitsOf text)) } := if_pos h

theorem parse_of_not_digits {text : List Char} (h : ¬(digitsOf text).all isDigit = true) :
    parse text = .error .invalidArgument := if_neg h

@[simp] theorem length_bitsOf (digits : List Char) : (bitsOf digits).length = digits.length := by simp [bitsOf]

/-- Bit `j` of the digits is 1 exactly when the `j`-th digit from the right is '1' (43_codec R177). -/
theorem getD_bitsOf_iff (digits : List Char) (j : Nat) :
    (bitsOf digits).getD j false = true ↔ digits.reverse[j]? = some '1' := by
  rw [bitsOf, List.getD_eq_getElem?_getD, List.getElem?_map]
  cases digits.reverse[j]? <;> simp

/-- Settles O58: the bits of the image are the digits read from the right, and `ldbin` fails with the parser. -/
theorem parserReadsDigits : Obligations.ParserReadsDigits := by
  intro text
  constructor
  · intro h
    refine ⟨_, parse_of_digits ((digitsOf_all_isDigit_iff text).2 h), rfl, by simp [ceil8], fun j _ => ?_⟩
    show ((packBits _).getD (j / 8) 0).getLsbD (j % 8) = true ↔ _
    rw [getLsbD_packBits _ _ (Nat.mod_lt j (by decide)), Nat.div_add_mod, getD_bitsOf_iff]
  · rintro ⟨c, hc, h0, h1, hs⟩
    have hparse : parse text = .error .invalidArgument := parse_of_not_digits fun h => by
      simpa [h0, h1, hs] using (digitsOf_all_isDigit_iff text).1 h c hc
    exact ⟨hparse, fun d => by simp only [Pseudo.lines, hparse]⟩

/-! ## Rendering what was parsed -/

/-- A digit is the character of its bit. -/
theorem digit_of_bit {c : Char} (h : isDigit c = true) : (if (c == '1') = true then '1' else '0') = c := by
  simp only [isDigit, Bool.or_eq_true, beq_iff_eq] at h
  rcases h with rfl | rfl <;> rfl

/-- A byte's characters, bit 7 first (43_codec R179). -/
theorem getElem_bits8 (b : Byte) {k : Nat} (hk : k < (bits8 b).length) :
    (bits8 b)[k] = if b.getLsbD (7 - k) = true then '1' else '0' := by
  simp [bits8]

/-- Digits padded on the left with '0' are the characters of their bits (43_codec R180). -/
theorem getElem_padded {digits : List Char} (h : digits.all isDigit = true) (p : Nat) {q : Nat}
    (hq : q < (List.replicate p '0' ++ digits).length) :
    (List.replicate p '0' ++ digits)[q] =
      if (bitsOf digits).getD (p + digits.length - 1 - q) false = true then '1' else '0' := by
  rw [List.length_append, List.length_replicate] at hq
  rcases Nat.lt_or_ge q p with hlt | hge
  · rw [List.getElem_append_left (by simpa using hlt), List.getElem_replicate,
      List.getD_eq_default _ _ (by rw [length_bitsOf]; omega)]
    rfl
  · have hpos : digits.length - 1 - (p + digits.length - 1 - q) = q - p := by omega
    rw [List.getElem_append_right (by simpa using hge), List.getD_eq_getElem _ _ (by rw [length_bitsOf]; omega)]
    simp only [bitsOf, List.getElem_map, List.getElem_reverse, hpos, List.length_replicate]
    exact (digit_of_bit (List.all_eq_true.1 h _ (List.getElem_mem _))).symm

/-- The groups of the padded digits are the characters of the packed bytes, the highest byte first (43_codec R180). -/
theorem map_bits8_packBits {digits : List Char} (h : digits.all isDigit = true) :
    (packBits (bitsOf digits)).reverse.map bits8 = regroup digits := by
  have hpad : 8 * ceil8 digits.length - digits.length + digits.length = 8 * ceil8 digits.length := by unfold ceil8; omega
  refine List.ext_getElem (by simp [regroup]) fun i h1 _ => ?_
  replace h1 : i < ceil8 digits.length := by simpa using h1
  simp only [regroup, List.getElem_map, List.getElem_reverse, List.getElem_range, length_packBits, length_bitsOf]
  refine List.ext_getElem ?_ fun k hk _ => ?_
  · simp [bits8]
    omega
  · have hk8 : k < 8 := by simpa [bits8] using hk
    have hbit : 8 * (ceil8 digits.length - 1 - i) + (7 - k) = 8 * ceil8 digits.length - 1 - (8 * i + k) := by omega
    rw [getElem_bits8, ← List.getD_eq_getElem _ 0, getLsbD_packBits _ _ (by omega), List.getElem_take, List.getElem_drop,
      getElem_padded h, hpad, hbit]

/-- Settles O59: the rendering's groups are those of `regroup`. -/
theorem renderAfterParseRegroups : Obligations.RenderAfterParseRegroups := by
  intro text im him
  by_cases h : (digitsOf text).all isDigit = true
  · rw [parse_of_digits h] at him
    injection him with him
    rw [← him, render, map_bits8_packBits h]
  · rw [parse_of_not_digits h] at him
    cases him

/-! ## Parsing what was rendered -/

/-- The spaces between groups are no digits (43_codec R177, R179). -/
theorem digitsOf_intercalate_space (groups : List (List Char)) :
    digitsOf ([' '].intercalate groups) = groups.flatMap digitsOf := by
  have happend (l m : List Char) : digitsOf (l ++ m) = digitsOf l ++ digitsOf m := List.filter_append ..
  induction groups with
  | nil => rfl
  | cons g groups ih =>
    cases groups with
    | nil => simp [List.intercalate]
    | cons g' groups =>
      simp only [List.intercalate, List.intersperse_cons_cons, List.flatten_cons, happend] at ih ⊢
      rw [ih, List.flatMap_cons]
      rfl

theorem isDigit_of_mem_bits8 {b : Byte} {c : Char} (h : c ∈ bits8 b) : isDigit c = true := by
  obtain ⟨j, -, rfl⟩ := List.mem_map.1 h
  split <;> rfl

theorem isSpace_eq_false_of_isDigit {c : Char} (h : isDigit c = true) : isSpace c = false := by
  simp only [isDigit, Bool.or_eq_true, beq_iff_eq] at h
  rcases h with rfl | rfl <;> rfl

theorem digitsOf_bits8 (b : Byte) : digitsOf (bits8 b) = bits8 b :=
  List.filter_eq_self.2 fun c hc => by rw [isSpace_eq_false_of_isDigit (isDigit_of_mem_bits8 hc)]; rfl

/-- The digits of a rendering (43_codec R179). -/
theorem digitsOf_render (bytes : List Byte) : digitsOf (render bytes) = bytes.reverse.flatMap bits8 := by
  rw [render, digitsOf_intercalate_space, List.flatMap_map]
  simp only [digitsOf_bits8]

/-- The bits of a byte's characters are the byte's bits (43_codec R177, R179). -/
theorem bitsOf_bits8 (b : Byte) : bitsOf (bits8 b) = byteBits b := by
  rw [bitsOf, bits8, ← List.map_reverse, List.reverse_reverse, List.map_map, byteBits]
  refine List.map_congr_left fun j _ => ?_
  show ((if b.getLsbD j then '1' else '0') == '1') = b.getLsbD j
  cases b.getLsbD j <;> rfl

/-- The bits of a rendering's digits are the bytes' bits, byte 0 first (43_codec R180). -/
theorem bitsOf_digitsOf_render (bytes : List Byte) : bitsOf (digitsOf (render bytes)) = bytes.flatMap byteBits := by
  rw [digitsOf_render, bitsOf, List.reverse_flatMap, List.reverse_reverse, List.map_flatMap]
  exact congrArg (List.flatMap · bytes) (funext bitsOf_bits8)

/-- A rendering parses to the bytes that were rendered (43_codec R180). -/
theorem parse_render (bytes : List Byte) : parse (render bytes) = .ok { size := 8 * bytes.length, bytes := bytes } := by
  have hdigits : (digitsOf (render bytes)).all isDigit = true := by
    rw [digitsOf_render, List.all_eq_true]
    intro c hc
    obtain ⟨b, -, hb⟩ := List.mem_flatMap.1 hc
    exact isDigit_of_mem_bits8 hb
  have hsize : (digitsOf (render bytes)).length = 8 * bytes.length := by
    rw [← length_bitsOf, bitsOf_digitsOf_render, length_flatMap_byteBits]
  rw [parse_of_digits hdigits, hsize, bitsOf_digitsOf_render, packBits_flatMap_byteBits]

end Sys2Proof.Machine
end

section
/-! SUPPORT. The host's read of a slot's bytes for the renderer: GETLEN and R, then GETRB and XBUF (43_codec R179). -/

namespace Sys2Proof.Machine

/-- Between commands: the reset input released, BUSY = 0, and the end of the last command seen by the host (20_memory R76). -/
def State.Idle (s : State) : Prop := s.resetLine = false ∧ s.busy = false ∧ s.awaiting = false

/-- A command line whose check passes leaves the command's effect, and the host past the line (30_encoding R99). -/
theorem run_cmd_line {s : State} {i : Instr} {rest : List HostAct} (hs : s.Idle) (hwf : i.wellFormed s.params.nslots = true)
    (hh : s.host = Line.acts s.params (.cmd i) ++ rest) (hc : checkOf i { s with cmd := encode i } = .ok) :
    ∃ n data lat draws, Host.Core.run core n s = .next { effectOf i { s with cmd := encode i } with
      busy := false, err := .ok, host := rest, busData := data, lat := lat, draws := draws } := by
  obtain ⟨hr, hb, ha⟩ := hs
  obtain ⟨n, t, u, hrun, hu, ht, -⟩ := commandLineRunsTheCommand s i rest hwf hr hb ha hh
  rw [exec_of_check hc, complete_ok] at hu
  injection hu with hu
  rw [← hu] at ht
  exact ⟨n, _, _, _, hrun.trans (congrArg _ ht)⟩

/-- The host's writes of A and B, one after the other (30_encoding R99). -/
theorem run_operand_lines {s : State} {a b : Word} {rest : List HostAct} (hs : s.Idle)
    (hh : s.host = Line.acts s.params (.wrA a) ++ (Line.acts s.params (.wrB b) ++ rest)) :
    Host.Core.run core 2 s = .next { s with a := a, b := b, host := rest } := by
  obtain ⟨hwriteA, -⟩ := operandWrites s a (Line.acts s.params (.wrB b) ++ rest)
  obtain ⟨-, hwriteB, -⟩ := operandWrites { s with a := a, host := Line.acts s.params (.wrB b) ++ rest } b rest
  rw [run_step core 1 (hwriteA ⟨hh, hs⟩)]
  exact run_step core 0 (hwriteB ⟨rfl, hs⟩)

/-- The reads of XBUF at these indices, one byte each. -/
def xbufReadsAt (p : Params) (indices : List Nat) : List HostAct :=
  indices.map fun i => .read 1 (p.base + Config.xbufOffset + i)

/-- The host's read of `n` bytes of XBUF (43_codec R179). -/
theorem xbufReads_eq (p : Params) (n : Nat) : xbufReads p n = xbufReadsAt p (List.range n) := rfl

/-- While BUSY = 0 reads of XBUF change the read value and the host's list alone (20_memory R70). -/
theorem run_xbufReadsAt {s : State} {indices : List Nat} (hm : s.params.maxBytes ≤ 2 ^ 28)
    (hin : ∀ i ∈ indices, i < s.params.maxBytes) (hb : s.busy = false) (hh : s.host = xbufReadsAt s.params indices) :
    ∃ data, Host.Core.run core indices.length s = .next { s with host := [], busData := data } := by
  induction indices generalizing s with
  | nil =>
    refine ⟨s.busData, ?_⟩
    rw [← show s.host = [] from hh]
    rfl
  | cons i indices ih =>
    obtain ⟨hi, hin⟩ := List.forall_mem_cons.1 hin
    have hread := step_read_xbuf (rest := xbufReadsAt s.params indices) hm hi (.inl rfl) hh hb
    obtain ⟨data, hrun⟩ := ih (s := { s with busData := _, host := xbufReadsAt s.params indices }) hm hin hb rfl
    exact ⟨data, (run_step core indices.length hread).trans hrun⟩

/-- A slot that holds a container exists (10_state R30). -/
theorem State.Inv.lt_nslots {s : State} (h : s.Inv) {k : SlotId} (hv : (s.slot k).valid = true) :
    k.toNat < s.params.nslots := by
  obtain ⟨-, -, hex, -⟩ := h
  by_contra hk
  simp [hex k (Nat.le_of_not_lt hk)] at hv

/-- A slot's length is within the capacity, and that within the spec's range (10_state R32, 00_scope R7). -/
theorem State.Inv.len_le {s : State} (h : s.Inv) (k : SlotId) :
    (s.slot k).len ≤ s.params.maxBytes ∧ s.params.maxBytes ≤ 2 ^ 28 := by
  obtain ⟨⟨-, -, -, hmax⟩, hslot, -⟩ := h
  obtain ⟨-, -, -, hlen, -⟩ := hslot k
  exact ⟨hlen, hmax⟩

theorem checkQuery_eq_ok (d : SlotId) (s : State) : checkQuery d s = .ok ↔ (s.slot d).valid = true := by
  simp [checkQuery, firstError_cons_eq_ok]

/-- While BUSY = 0 a read of R returns it and changes nothing else of BACE (10_state R40, 20_memory R70). -/
theorem step_read_r {s : State} {rest : List HostAct} (hh : s.host = .read 4 (s.params.base + 0x00C) :: rest)
    (hb : s.busy = false) : step s = .next { s with busData := s.r, host := rest } :=
  registerReads s 0x00C rest hh hb s.r (by simp)

/-- The host's read of a slot's length changes R, STATUS, CMD and the model's own fields alone (43_codec R179, 44_query R196). -/
theorem run_withLengthRead {s : State} {k : SlotId} (hinv : s.Inv) (hv : (s.slot k).valid = true) (hs : s.Idle) :
    ∃ n lat draws, Host.Core.run core n (s.withLengthRead k) = .next { s with
      cmd := encode (.getlen k), r := BitVec.ofNat 32 (s.slot k).len, busy := false, err := .ok
      host := [], busData := BitVec.ofNat 32 (s.slot k).len, lat := lat, draws := draws } := by
  have hwf : (Instr.getlen k).wellFormed s.params.nslots = true :=
    (wellFormed_iff _ _).2 ⟨hinv.lt_nslots hv, by simp [Instr.other]⟩
  obtain ⟨n, data, lat, draws, hrun⟩ := run_cmd_line (s := s.withLengthRead k) hs hwf rfl ((checkQuery_eq_ok k s).2 hv)
  let t : State := { s with
    cmd := encode (.getlen k), r := BitVec.ofNat 32 (s.slot k).len, busy := false, err := .ok
    host := [.read 4 (s.params.base + 0x00C)], busData := data, lat := lat, draws := draws }
  have hread := step_read_r (s := t) rfl rfl
  exact ⟨n + 1, lat, draws, run_append core hrun (run_step core 0 hread)⟩

/-- GETRB of the `n` bytes from 0 (41_range R133). -/
theorem effectGetrb_from_zero {s : State} {n : Nat} (ha : sint32 s.a = 0) (hb : sint32 s.b = n) (k : SlotId) :
    effectGetrb k s = { s with xbuf := s.xbuf.fill (s.byte k) 0 n, xlen := BitVec.ofNat 32 n } := by
  simp only [effectGetrb, ha, hb, Int.toNat_zero, Int.toNat_natCast, Nat.zero_add, Nat.sub_zero]

/-- A GETRB line for the whole of a slot copies its bytes to XBUF and its length to XLEN (30_encoding R99, 41_range R133). -/
theorem run_getrb_line {s : State} {k : SlotId} {rest : List HostAct} (hs : s.Idle) (hlt : k.toNat < s.params.nslots)
    (hv : (s.slot k).valid = true) (hpos : 0 < (s.slot k).len) (ha : sint32 s.a = 0) (hb : sint32 s.b = (s.slot k).len)
    (hh : s.host = Line.acts s.params (.cmd (.getrb k)) ++ rest) :
    ∃ n data lat draws, Host.Core.run core n s = .next { s with
      cmd := encode (.getrb k), xlen := BitVec.ofNat 32 (s.slot k).len, xbuf := s.xbuf.fill (s.byte k) 0 (s.slot k).len
      busy := false, err := .ok, host := rest, busData := data, lat := lat, draws := draws } := by
  have hwf : (Instr.getrb k).wellFormed s.params.nslots = true := (wellFormed_iff _ _).2 ⟨hlt, by simp [Instr.other]⟩
  have hc : checkGetrb k s = .ok := (checkGetrb_eq_ok k s).2 ⟨hv, by omega, hb.le⟩
  have hrun := run_cmd_line hs hwf hh hc
  rwa [effectOf, effectGetrb_from_zero (s := { s with cmd := encode (.getrb k) }) ha hb] at hrun

/-- The accesses that read the bytes of a slot that has some (43_codec R179). -/
theorem sliceActs_of_pos (p : Params) (k : SlotId) {len : Nat} (h : 0 < len) :
    sliceActs p k len = Line.acts p (.wrA 0) ++ (Line.acts p (.wrB (BitVec.ofNat 32 len)) ++
      (Line.acts p (.cmd (.getrb k)) ++ xbufReads p len)) := by
  rw [sliceActs, sliceLines, if_neg (by omega)]
  rfl

/-- Nothing is read of an empty slot (43_codec R179). -/
theorem withSliceRead_of_empty {s : State} (hdata : s.busData.toNat = 0) (k : SlotId) :
    s.withSliceRead k = { s with host := [] } := by
  rw [State.withSliceRead, hdata]
  rfl

/-- The host's read of the bytes of a slot that has some copies them to XBUF (43_codec R179, 41_range R133). -/
theorem run_withSliceRead_of_pos {s : State} {k : SlotId} (hs : s.Idle) (hlt : k.toNat < s.params.nslots)
    (hv : (s.slot k).valid = true) (hmax : (s.slot k).len ≤ s.params.maxBytes) (hm : s.params.maxBytes ≤ 2 ^ 28)
    (hdata : s.busData.toNat = (s.slot k).len) (hpos : 0 < (s.slot k).len) :
    ∃ n u, Host.Core.run core n (s.withSliceRead k) = .next u ∧ u = { s with
      a := 0, b := BitVec.ofNat 32 (s.slot k).len, cmd := encode (.getrb k)
      xlen := BitVec.ofNat 32 (s.slot k).len, xbuf := s.xbuf.fill (s.byte k) 0 (s.slot k).len
      busy := false, err := .ok, host := [], busData := u.busData, lat := u.lat, draws := u.draws } := by
  have hhost : (s.withSliceRead k).host = _ :=
    (congrArg (sliceActs s.params k) hdata).trans (sliceActs_of_pos s.params k hpos)
  have hoperands := run_operand_lines (s := s.withSliceRead k) hs hhost
  have hb : sint32 (BitVec.ofNat 32 (s.slot k).len) = (s.slot k).len := sint32_ofNat (by omega)
  obtain ⟨n, data, lat, draws, hcmd⟩ := run_getrb_line (k := k) (rest := xbufReads s.params (s.slot k).len) (s := { s with
    a := 0, b := BitVec.ofNat 32 (s.slot k).len
    host := Line.acts s.params (.cmd (.getrb k)) ++ xbufReads s.params (s.slot k).len }) hs hlt hv hpos rfl hb rfl
  obtain ⟨data', hreads⟩ := run_xbufReadsAt (indices := List.range (s.slot k).len) (s := { s with
    a := 0, b := BitVec.ofNat 32 (s.slot k).len, cmd := encode (.getrb k)
    xlen := BitVec.ofNat 32 (s.slot k).len, xbuf := s.xbuf.fill (s.byte k) 0 (s.slot k).len
    busy := false, err := .ok, host := xbufReads s.params (s.slot k).len, busData := data, lat := lat, draws := draws }) hm
    (fun i hi => (List.mem_range.1 hi).trans_le hmax) rfl (xbufReads_eq ..)
  exact ⟨_, _, run_append core hoperands (run_append core hcmd hreads), rfl⟩

/-- From `s` to `u` the host has read the bytes of slot `k`: they stand in XBUF, of BACE's registers A, B, CMD, XLEN and STATUS
changed at most, and none of the first four if the slot is empty (43_codec R179). -/
structure BytesRead (k : SlotId) (s u : State) : Prop where
  frame : u = { s with
    a := u.a, b := u.b, cmd := u.cmd, xlen := u.xlen, xbuf := u.xbuf, busy := false, err := .ok, host := []
    busData := u.busData, lat := u.lat, draws := u.draws }
  bytes : ∀ i < (s.slot k).len, u.xread i = s.byte k i
  beyond : ∀ i, (s.slot k).len ≤ i → u.xread i = s.xread i
  empty : (s.slot k).len = 0 → u.a = s.a ∧ u.b = s.b ∧ u.xlen = s.xlen ∧ u.xbuf = s.xbuf
  nonempty : 0 < (s.slot k).len → u.a = 0 ∧ u.b.toNat = (s.slot k).len ∧ u.xlen.toNat = (s.slot k).len

/-- XBUF after a fill from its start. -/
theorem xread_of_fill {s u : State} {f : Nat → Byte} {n : Nat} (hx : u.xbuf = s.xbuf.fill f 0 n) (he : u.epoch = s.epoch)
    (i : Nat) : u.xread i = if i < n then f i else s.xread i := by
  unfold State.xread
  rw [hx, he, Mem.get?_fill, Nat.zero_add]
  simp only [Nat.zero_le, true_and]
  split <;> rfl

/-- The host's read of a slot's bytes, empty or not (43_codec R179). -/
theorem run_withSliceRead {s : State} {k : SlotId} (hs : s.Idle) (herr : s.err = .ok) (hlt : k.toNat < s.params.nslots)
    (hv : (s.slot k).valid = true) (hmax : (s.slot k).len ≤ s.params.maxBytes) (hm : s.params.maxBytes ≤ 2 ^ 28)
    (hdata : s.busData.toNat = (s.slot k).len) :
    ∃ n u, Host.Core.run core n (s.withSliceRead k) = .next u ∧ BytesRead k s u := by
  rcases Nat.eq_zero_or_pos (s.slot k).len with h0 | hpos
  · obtain ⟨-, hb, -⟩ := hs
    refine ⟨0, _, congrArg Host.Outcome.next (withSliceRead_of_empty (hdata.trans h0) k), ?_, by simp [h0], fun _ _ => rfl,
      fun _ => ⟨rfl, rfl, rfl, rfl⟩, by simp [h0]⟩
    rw [← hb, ← herr]
  · obtain ⟨n, u, hrun, hu⟩ := run_withSliceRead_of_pos hs hlt hv hmax hm hdata hpos
    have hnum : (BitVec.ofNat 32 (s.slot k).len).toNat = (s.slot k).len := Nat.mod_eq_of_lt (by omega)
    have hx := xread_of_fill (s := s) (u := u) (f := s.byte k) (n := (s.slot k).len) (by rw [hu]) (by rw [hu])
    refine ⟨n, u, hrun, by rw [hu], fun i hi => (hx i).trans (if_pos hi), fun i hi => (hx i).trans (if_neg hi.not_gt),
      by omega, fun _ => ?_⟩
    rw [hu]
    exact ⟨rfl, hnum, hnum⟩

/-- What the host has read back is the slot's backing bytes (43_codec R179). -/
theorem BytesRead.readBack_eq {k : SlotId} {s u : State} (h : BytesRead k s u) (hr : s.r.toNat = (s.slot k).len) :
    u.readBack = s.backing k := by
  have hr' : u.r = s.r := by rw [h.frame]
  rw [State.readBack, hr', hr]
  exact List.map_congr_left fun i hi => h.bytes i (List.mem_range.1 hi)

@[simp] theorem length_backing (s : State) (k : SlotId) : (s.backing k).length = (s.slot k).len := by simp [State.backing]

/-- Settles O60: a rendering parses to its bytes, and what the host reads back is the slot's backing bytes. -/
theorem parseAfterRenderRestores : Obligations.ParseAfterRenderRestores := by
  refine ⟨parse_render, fun s k hinv hv hr hb ha => ?_⟩
  obtain ⟨hmax, hm⟩ := hinv.len_le k
  have hnum : (BitVec.ofNat 32 (s.slot k).len).toNat = (s.slot k).len := Nat.mod_eq_of_lt (by omega)
  obtain ⟨m, lat, draws, hlength⟩ := run_withLengthRead hinv hv ⟨hr, hb, ha⟩
  obtain ⟨n, u, hslice, hread⟩ := run_withSliceRead (k := k) (s := { s with
    cmd := encode (.getlen k), r := BitVec.ofNat 32 (s.slot k).len, busy := false, err := .ok
    host := [], busData := BitVec.ofNat 32 (s.slot k).len, lat := lat, draws := draws }) ⟨hr, rfl, ha⟩ rfl
    (hinv.lt_nslots hv) hv hmax hm hnum
  have hback : u.readBack = s.backing k := hread.readBack_eq hnum
  obtain ⟨hframe, -, hbeyond, hempty, hnonempty⟩ := hread
  refine ⟨m, n, _, u, hlength, rfl, hnum, hslice, by rw [hframe], by rw [hframe], ?_, by rw [hframe], by rw [hframe],
    by rw [hframe], by rw [hframe], ?_, hback, ?_, ?_, hempty, fun hpos => ?_⟩
  · rw [hframe]
    exact ha
  · rw [hframe]
    exact hnum
  · rw [hback]
    rfl
  · rw [hback, parse_render, length_backing]
  · obtain ⟨h1, h2, h3⟩ := hnonempty hpos
    exact ⟨h1, h2, h3, hbeyond⟩

end Sys2Proof.Machine
end

section
/-! SUPPORT. The queries: GETSIZE, GETLEN (44_query). -/

namespace Sys2Proof.Machine

open Laws

/-- A slot's size in bits fits a register (10_state R31, R32, 00_scope R7). -/
theorem State.Inv.size_lt {s : State} (h : s.Inv) (k : SlotId) : (s.slot k).size < 2 ^ 32 := by
  obtain ⟨hmax, hm⟩ := h.len_le k
  obtain ⟨-, hslot, -⟩ := h
  obtain ⟨-, hceil, -⟩ := (slotInv_iff ..).1 (hslot k)
  unfold ceil8 at hceil
  omega

/-- A slot's length in bytes fits a register (10_state R32, 00_scope R7). -/
theorem State.Inv.len_lt {s : State} (h : s.Inv) (k : SlotId) : (s.slot k).len < 2 ^ 32 := by
  obtain ⟨hmax, hm⟩ := h.len_le k
  omega

/-- A command whose check passes and whose effect is a number in R answers that number if it fits, and STATUS changes besides. -/
theorem exec_answers {i : Instr} {s : State} {n : Nat} (hc : checkOf i s = .ok)
    (he : effectOf i s = { s with r := BitVec.ofNat 32 n }) (hn : n < 2 ^ 32) :
    ∃ t, exec i s = .next t ∧ t = { s with r := t.r, busy := false, err := .ok } ∧ t.r.toNat = n := by
  refine ⟨{ s with r := BitVec.ofNat 32 n, busy := false, err := .ok }, ?_, rfl, Nat.mod_eq_of_lt hn⟩
  rw [exec_of_check hc, he, complete_ok]

/-- Settles O31: both commands answer a number of the slot's, and the invariant bounds both numbers. -/
theorem queriesReadSizeAndLength : Obligations.QueriesReadSizeAndLength := by
  intro d s hinv
  refine ⟨fun hv => ?_, fun hv => ?_, WordShape.getsize d, WordShape.getlen d⟩
  · have hc : checkQuery d s = .ok := (checkQuery_eq_ok d s).2 hv
    exact ⟨exec_answers (i := .getsize d) hc rfl (hinv.size_lt d), exec_answers (i := .getlen d) hc rfl (hinv.len_lt d)⟩
  · exact ⟨fails_noContainer (namesNoContainer_of_invalid rfl hv), fails_noContainer (namesNoContainer_of_invalid rfl hv)⟩

end Sys2Proof.Machine
end

section
/-! SUPPORT. Every command completes and reports one code (60_exceptions R206, R207), and an idle machine keeps its state
(60_exceptions R217). -/

namespace Sys2Proof.Machine

/-- Every command answers a next state, with ERR the first condition in R207's order. -/
theorem exec_reports (i : Instr) (s : State) : ∃ t, exec i s = .next t ∧ t.err = reportedCode i s := by
  refine ⟨_, exec_eq i s, ?_⟩
  rw [checkOf_eq_reportedCode]
  split
  next hok => exact hok.symm
  next => rfl

/-- With BUSY = 0 the host's step is next, the reset input asserted or not (70_reset R230, R232). -/
theorem step_of_not_busy {s : State} (h : s.busy = false) : step s = hostStep s := by
  simp [step, h]

/-- Settles O8: ERR is the first condition's code, and the frame of a command fixes BUSY and ERRSEEN by that code. -/
theorem everyCommandCompletes : Obligations.EveryCommandCompletes := by
  intro i s
  obtain ⟨t, ht, herr⟩ := exec_reports i s
  have hframe := exec_frame ht
  refine ⟨t, ht, congrArg State.busy hframe, herr, ?_⟩
  rw [← herr]
  exact congrArg State.errSeen hframe

/-- Settles O9: a command whose check phase reports an error skips its effect phase, so it changes STATUS alone. -/
theorem failedCommandsChangeOnlyStatus : Obligations.FailedCommandsChangeOnlyStatus := fun _ _ h => fails_of_reportedCode rfl h

/-- Settles O56: with BUSY = 0 only the host can move, and it has no access left. -/
theorem idleKeepsAllState : Obligations.IdleKeepsAllState := by
  intro s hbusy hhost
  rw [step_of_not_busy hbusy, hostStep_no_access hhost]

end Sys2Proof.Machine
end

section
/-! SUPPORT. A running command to its end, and the host's accesses while it runs (70_reset R234, R235, R239). -/

namespace Sys2Proof.Machine

/-- The engine's step ends the running command and leaves the host's accesses (60_exceptions R206). -/
theorem engineStep_ends (s : State) : ∃ t, engineStep s = .next t ∧ t.busy = false ∧ t.host = s.host := by
  unfold engineStep
  split
  next i _ =>
    obtain ⟨t, ht⟩ : ∃ t, exec i s = .next t := ⟨_, exec_eq i s⟩
    refine ⟨t, ht, ?_⟩
    rw [exec_frame ht]
    exact ⟨rfl, rfl⟩
  next => exact ⟨s.complete .illegalCommand, rfl, rfl, rfl⟩

/-- While a command runs and the engine's step is not next, a silent or waiting host brings it one step nearer, and nothing else
moves but the read value and the count of draws (70_reset R234, R239). -/
theorem step_before_engine {s : State} (hr : s.resetLine = false) (hb : s.busy = true) (hl : s.lat ≠ 0)
    (hh : s.host = [] ∨ ∃ rest, s.host = .waitIdle :: rest) :
    ∃ data draws, step s = .next { s with lat := s.lat - 1, busData := data, draws := draws } := by
  obtain hh | ⟨rest, hh⟩ := hh
  · obtain ⟨n, hn⟩ := Nat.exists_eq_add_one_of_ne_zero hl
    exact ⟨s.busData, s.draws, by simp [step, hr, hb, hn, hostStep, hh]⟩
  · exact ⟨_, _, step_waiting hr hb hl hh⟩

/-- Settles O10, by induction on the steps left before the engine's. -/
theorem runningCommandEnds : Obligations.RunningCommandEnds := by
  intro s hr hb hh
  induction hl : s.lat generalizing s with
  | zero =>
    obtain ⟨t, ht, hend⟩ := engineStep_ends s
    exact ⟨t, run_step core 0 ((step_engine ⟨hr, hb, hl⟩).trans ht), hend⟩
  | succ n ih =>
    obtain ⟨data, draws, hstep⟩ := step_before_engine hr hb (by omega) hh
    obtain ⟨t, hrun, hend⟩ := ih { s with lat := s.lat - 1, busData := data, draws := draws } hr hb hh
      (Nat.sub_eq_of_eq_add hl)
    exact ⟨t, (run_step core (n + 1) hstep).trans hrun, hend⟩

/-- Settles O6: the engine's step decodes CMD's word and runs the command. -/
theorem stepRunsTheDecodedCommand : Obligations.StepRunsTheDecodedCommand := fun _ _ => step_of_decode

/-- Settles O55: while BUSY = 1 the wait's read leaves the host waiting, and at BUSY = 0 it ends the wait. -/
theorem waitEndsWhenIdle : Obligations.WaitEndsWhenIdle := by
  rintro s rest ⟨hh, hnext⟩ hr
  obtain hb | hb := Bool.eq_false_or_eq_true s.busy
  · have hl : s.lat ≠ 0 := by simpa [hr, hb] using hnext
    exact ⟨_, step_waiting hr hb hl hh, rfl, by simp [hb], fun _ => ⟨rfl, hb, rfl⟩⟩
  · exact ⟨_, step_waitIdle hb hh, rfl, fun _ => rfl, by simp [hb]⟩

/-! ## Reads while BUSY = 1 -/

/-- While BUSY = 1 a read changes the read value and the count of draws alone (20_memory R70, R76). -/
theorem hostRead_while_busy {s : State} (hb : s.busy = true) (bytes off : Nat) :
    s.hostRead bytes off = { s with busData := s.readValue bytes off, draws := s.draws + 1 } := by
  simp [State.hostRead, hb]

/-- The registers whose reads are defined whether or not a command runs (70_reset R235). -/
theorem readValue_defined {s : State} {bytes off : Nat} {v : Word}
    (h : (bytes, off, v) ∈ [(4, 0x000, s.cmd), (4, 0x010, s.status), (4, 0x018, BitVec.ofNat 32 s.params.nslots),
      (4, 0x01C, BitVec.ofNat 32 s.params.maxBytes)]) : s.readValue bytes off = v := by
  simp only [List.mem_cons, Prod.mk.injEq, List.not_mem_nil, or_false] at h
  obtain ⟨rfl, rfl, rfl⟩ | ⟨rfl, rfl, rfl⟩ | ⟨rfl, rfl, rfl⟩ | ⟨rfl, rfl, rfl⟩ := h
  · rfl
  · rfl
  · rfl
  · rfl

/-- The window takes aligned words everywhere and single bytes beyond the registers (20_memory R72). -/
theorem shapeAllowed_eq_true {bytes off : Nat} (h : (bytes = 4 ∧ off % 4 = 0) ∨ (bytes = 1 ∧ 0x20 ≤ off)) :
    shapeAllowed bytes off = true := by
  obtain ⟨rfl, h4⟩ | ⟨rfl, hoff⟩ := h
  · exact decide_eq_true h4
  · exact decide_eq_true hoff

/-- Settles O50: the read is no fault, and while BUSY = 1 it touches the host's side alone. -/
theorem definedReadsWhileBusy : Obligations.DefinedReadsWhileBusy := by
  intro s bytes off rest h _ hb hoff hs
  have hf := accessFault_eq_none s.params hoff (shapeAllowed_eq_true hs)
  rw [step_host h, hostAct_read { s with host := rest, lat := _ } hf,
    hostRead_while_busy (s := { s with host := rest, lat := _ }) hb]
  exact ⟨_, rfl, rfl, fun v hv => readValue_defined (s := { s with host := rest, lat := _ }) hv⟩

/-! ## Writes while BUSY = 1, or before the host has read BUSY = 0 -/

theorem guardedWrite_barred {s : State} (h : s.busy = true ∨ s.awaiting = true) (t : State) :
    s.guardedWrite t = .fault .hostWriteWhileBusy :=
  if_pos (Bool.or_eq_true_iff.2 h)

/-- Writes of CMD, A, B and XLEN are guarded (70_reset R236). -/
theorem hostWrite_register_guarded (s : State) {off : Nat} (h : off ∈ [0x000, 0x004, 0x008, 0x014]) (w : Word) :
    ∃ t, s.hostWrite 4 off w = s.guardedWrite t := by
  simp only [List.mem_cons, List.not_mem_nil, or_false] at h
  obtain rfl | rfl | rfl | rfl := h
  · exact ⟨_, rfl⟩
  · exact ⟨_, rfl⟩
  · exact ⟨_, rfl⟩
  · exact ⟨_, rfl⟩

/-- Writes of XBUF are guarded (70_reset R236). -/
theorem hostWrite_xbuf_guarded {s : State} {i : Nat} (hi : i < s.params.maxBytes) (bytes : Nat) (w : Word) :
    ∃ t, s.hostWrite bytes (Config.xbufOffset + i) w = s.guardedWrite t := by
  rw [State.hostWrite, if_neg (not_register i), if_pos (inXbuf_add hi)]
  exact ⟨_, rfl⟩

/-- A guarded write is a host-protocol violation while BUSY = 1 and until the host has read BUSY = 0 (70_reset R235, R236). -/
theorem step_barred_write {s : State} {bytes off : Nat} {w : Word} {rest : List HostAct}
    (h : HostNext s (.write bytes (s.params.base + off) w) rest) (hr : s.resetLine = false)
    (hbar : s.busy = true ∨ s.awaiting = true) (hf : accessFault s.params bytes (s.params.base + off) = none)
    (hw : ∀ u : State, u.params = s.params → ∃ t, u.hostWrite bytes off w = u.guardedWrite t) :
    step s = .fault .hostWriteWhileBusy := by
  rw [step_host h, hostAct_write { s with host := rest, lat := _ } hf, if_neg (by simp [hr])]
  obtain ⟨t, ht⟩ := hw { s with host := rest, lat := _ } rfl
  rw [ht, guardedWrite_barred (s := { s with host := rest, lat := _ }) hbar]

/-- Settles O53: each of these writes is allowed by its shape and guarded by the protocol. -/
theorem writesWhileBusyFault : Obligations.WritesWhileBusyFault := by
  unfold Obligations.WritesWhileBusyFault
  rw [xbufOffset_eq]
  rintro s bytes off w rest h hr hbar hm (⟨rfl, hoff⟩ | ⟨hs, hlo, hhi⟩)
  · have hreg : ∀ off ∈ [0x000, 0x004, 0x008, 0x014], off < 0x20000000 ∧ off % 4 = 0 := by decide
    obtain ⟨hwin, h4⟩ := hreg off hoff
    exact step_barred_write h hr hbar (accessFault_eq_none _ hwin (decide_eq_true h4))
      fun u _ => hostWrite_register_guarded u hoff w
  · obtain ⟨i, rfl⟩ := Nat.exists_eq_add_of_le hlo
    have hi : i < s.params.maxBytes := Nat.lt_of_add_lt_add_left hhi
    have h4 : Config.xbufOffset % 4 = 0 := by decide
    exact step_barred_write h hr hbar (accessFault_xbuf hm hi (by omega))
      fun u hu => hostWrite_xbuf_guarded (hu ▸ hi) bytes w

end Sys2Proof.Machine
end

section
/-! SUPPORT. The reset input: its assertion, its level and its release (70_reset R230 to R232). -/

namespace Sys2Proof.Machine

/-- STATUS is 0 after reset (10_state R44, R49). -/
theorem status_of_atReset {s : State} (h : s.AtReset) : s.status = 0 := by
  obtain ⟨-, -, -, -, -, -, -, hbusy, hseen, herr⟩ := h
  rw [State.status, hbusy, hseen, herr]
  rfl

/-- Settles O42: asserting the reset input is a host's move, and it gives every piece of state its value after reset. -/
theorem resetAtAnyTime : Obligations.ResetAtAnyTime := fun _ _ h =>
  ⟨_, step_host h, atReset_assertReset _, status_of_atReset (atReset_assertReset _), rfl, rfl, rfl⟩

/-- While the reset input is asserted no move of the host changes BACE's state, and only a release lowers the input (70_reset R230). -/
theorem atReset_hostMove {s t : State} {act : HostAct} (hr : s.resetLine = true) (h : s.AtReset) (hm : HostMove s act t) :
    t.AtReset ∧ (t.resetLine = true ∨ act = .releaseReset) := by
  cases hm with
  | read | wait | waitAgain | ignored => exact ⟨h, .inl hr⟩
  | issue _ _ _ hlow | operand _ _ _ _ _ _ hlow | beyond _ _ _ _ hlow => simp [hr] at hlow
  | assertReset => exact ⟨atReset_assertReset s, .inl rfl⟩
  | releaseReset => exact ⟨h, .inr rfl⟩

/-- Settles O43: while the input is asserted the engine does not move, and the host's moves keep R49's values; a release lowers the
input alone. -/
theorem resetHoldsTheState : Obligations.ResetHoldsTheState := by
  refine ⟨fun s t hinv hr ht => ?_, fun s rest h => ⟨_, step_host h, rfl, rfl, fun hr => if_neg (by simp [hr])⟩⟩
  obtain ⟨-, -, -, -, -, -, hreset⟩ := hinv
  have hat := hreset hr
  rcases step_cases ht with ⟨⟨hlow, -⟩, -⟩ | ⟨n, rfl⟩ | ⟨act, rest, n, ⟨hh, -⟩, hm⟩
  · simp [hr] at hlow
  · exact ⟨hat, .inl hr⟩
  · obtain ⟨ht, hline⟩ := atReset_hostMove (s := { s with host := rest, lat := n }) hr hat hm
    exact ⟨ht, hline.imp_right fun hact => ⟨rest, by rw [hh, hact]⟩⟩

end Sys2Proof.Machine
end
